-- ==== Sys2Proof/Word.lean ====
section
/-! DEFINITION. The word types of the block (00_scope.md R7): a register word is an unsigned 32-bit value,
bit 0 its least significant bit. -/

namespace Sys2Proof

/-- A register word (R7). -/
abbrev Word := BitVec 32

/-- A 16-bit identifier word (R157) or time stamp (R160). -/
abbrev Half := BitVec 16

/-- A payload byte (R56). -/
abbrev Byte := BitVec 8

/-- A word as it crosses the bus when some of its bits are draws (R59, R202, R350, R402): where `free` has a 1
the bit is the one of `draw`, elsewhere it is the one of `val`. 95_test_vectors.md calls the bits outside `free`
the "defined bits". The 32-bit word itself is `BusWord.word`. -/
structure BusWord where
  /-- the bits the spec defines -/
  val : Word
  /-- a 1 at each bit the spec leaves to a draw -/
  free : Word
  /-- the draw those bits take -/
  draw : Word
  deriving DecidableEq, Repr

end Sys2Proof
end

