-- ==== Sys2Proof/Config.lean ====
section
/-! DEFINITION. What an implementation fixes (00_scope.md R5) and the free values (R8, `draw()`).
The OPEN parameters of R5 are data, `Params`, carried in the machine's State and written by no step, so that a
statement about every state holds for every choice of them (log 1). -/

namespace Sys2Proof

/-- A controller instance (R5, R462): instance 0 is CAN1, instance 1 is CAN2. -/
inductive Inst where
  | can1
  | can2
  deriving DecidableEq, Repr

/-- `NINST` (R5): "1 or 2". -/
inductive InstCount where
  | one
  | two
  deriving DecidableEq, Repr

/-- `NBANKS` (R5): "14 or 28". -/
inductive BankCount where
  | banks14
  | banks28
  deriving DecidableEq, Repr

/-- The parameters of R5 that the source does not fix. -/
structure Params where
  /-- `NINST` -/
  ninst : InstCount
  /-- `NBANKS` -/
  nbanks : BankCount
  /-- `FILTER_OWNER`, which matters when `NINST = 2` -/
  filterOwner : Inst
  /-- `FILTER32_PACK_SHIFT` -/
  packShift : Nat
  /-- `FILTER_BIT0_COMPARED` -/
  bit0Compared : Bool
  /-- `FMI_RESTART_AT_CAN2SB` -/
  fmiRestart : Bool
  /-- `POLL_BOUND` -/
  pollBound : Nat
  /-- `CAN_BASE[0]` -/
  canBase1 : Nat
  /-- `CAN_BASE[1]` -/
  canBase2 : Nat
  deriving DecidableEq, Repr

/-- The number of filter banks. -/
def BankCount.toNat : BankCount → Nat
  | .banks14 => 14
  | .banks28 => 28

namespace Config

/-- `FIFO_DEPTH` (R5, 92 D31). -/
def fifoDepth : Nat := 3

/-- `ERR_WARN_LIMIT` (R5, R454). -/
def errWarnLimit : Nat := 96

/-- `ERR_PASSIVE_LIMIT` (R5, R454). -/
def errPassiveLimit : Nat := 128

/-- `BRP_MAX` (R5). -/
def brpMax : Nat := 1024

/-- `TS1_MAX` (R5). -/
def ts1Max : Nat := 16

/-- `TS2_MAX` (R5). -/
def ts2Max : Nat := 8

/-- `SJW_MAX` (R5). -/
def sjwMax : Nat := 4

/-- The size of an instance's register window (R120). -/
def windowSize : Nat := 0x400

/-- `draw()` of R8: the n-th free value of a run, "under no law". It has no body, so no proof can lean on a value
of it (log 2). -/
opaque draw : Nat → Word

/-- The parameters the machine is reset with: the family's part (log 1, PRESUMED for `NINST`, `NBANKS`,
`FILTER_OWNER` and the base addresses; the defaults of R5 for the shift and the poll bound; DESIGN CHOICE for the
two Booleans). -/
def params : Params where
  ninst := .two
  nbanks := .banks28
  filterOwner := .can1
  packShift := 3
  bit0Compared := false
  fmiRestart := false
  pollBound := 65535
  canBase1 := 0x40006400
  canBase2 := 0x40006800

end Config

end Sys2Proof
end

