-- ==== Sys2Proof/Syntax.lean ====
section
/-! DEFINITION. The instructions: one constructor per row of spec/opcode_table.json. A register access (30_encoding.md
R150) carries the instance whose window it reaches and, when it writes, the 32-bit data value; a driver operation
(R154) carries the operands its rule gives. -/

namespace Sys2Proof

/-- A transmit mailbox x, "exactly 3" (R5, R54). -/
inductive MbIx where
  | m0
  | m1
  | m2
  deriving DecidableEq, Repr

/-- A receive FIFO x, "exactly 2" (R5, R55). -/
inductive FifoIx where
  | f0
  | f1
  deriving DecidableEq, Repr

/-- Which of a bank's two content words (R53). -/
inductive WordIx where
  | r1
  | r2
  deriving DecidableEq, Repr

/-- A register of an instance's window (R34). A bank is named by its number; whether it exists is a matter of
`NBANKS` (R304). -/
inductive Reg where
  | mcr
  | msr
  | tsr
  | rfr (x : FifoIx)
  | ier
  | esr
  | btr
  | tir (x : MbIx)
  | tdtr (x : MbIx)
  | tdlr (x : MbIx)
  | tdhr (x : MbIx)
  | rir (x : FifoIx)
  | rdtr (x : FifoIx)
  | rdlr (x : FifoIx)
  | rdhr (x : FifoIx)
  | fmr
  | fm1r
  | fs1r
  | ffa1r
  | fa1r
  | fr (b : Fin 28) (k : WordIx)
  deriving DecidableEq, Repr

/-- A bit timing (R250): quanta counts and the prescaler divisor, unbounded naturals (R259). -/
structure Timing where
  ts1 : Nat
  ts2 : Nat
  brp : Nat
  sjw : Nat
  deriving DecidableEq, Repr

/-- The width of a host access; only 32 bits is accepted (R124). -/
inductive Width where
  | w32
  | w16
  | w8
  deriving DecidableEq, Repr

/-- One host access to an instance's window (R150): the 11-bit access word W ++ OFF, the access width, and the data
value of a write. Every fault records the access that raised it (R451). -/
structure Access where
  inst : Inst
  word : BitVec 11
  width : Width
  data : Option Word
  deriving DecidableEq, Repr

/-- The two formats of the opcode table: an access word (R150) and a driver-operation selector (R154). -/
inductive Format where
  | access
  | operation
  deriving DecidableEq, Repr

/-- An encoded host request: its format and its bytes. The access word and the selector are the spec's; the bytes
that carry the operands are the model's (log 7). -/
structure HostCode where
  fmt : Format
  bytes : List Byte
  deriving DecidableEq, Repr

/-- The instructions of the opcode table. -/
inductive Instr where
  /-- `rd MCR` (R200) -/
  | rdMCR (i : Inst)
  /-- `wr MCR` (R201) -/
  | wrMCR (i : Inst) (v : Word)
  /-- `rd MSR` (R202) -/
  | rdMSR (i : Inst)
  /-- `wr MSR` (R203) -/
  | wrMSR (i : Inst) (v : Word)
  /-- `rd TSR` (R350) -/
  | rdTSR (i : Inst)
  /-- `wr TSR` (R351) -/
  | wrTSR (i : Inst) (v : Word)
  /-- `rd RF0R` (R400) -/
  | rdRF0R (i : Inst)
  /-- `wr RF0R` (R401) -/
  | wrRF0R (i : Inst) (v : Word)
  /-- `rd RF1R` (R400) -/
  | rdRF1R (i : Inst)
  /-- `wr RF1R` (R401) -/
  | wrRF1R (i : Inst) (v : Word)
  /-- `rd IER` (R452) -/
  | rdIER (i : Inst)
  /-- `wr IER` (R452) -/
  | wrIER (i : Inst) (v : Word)
  /-- `rd ESR` (R453) -/
  | rdESR (i : Inst)
  /-- `wr ESR` (R453) -/
  | wrESR (i : Inst) (v : Word)
  /-- `rd BTR` (R251) -/
  | rdBTR (i : Inst)
  /-- `wr BTR` (R252) -/
  | wrBTR (i : Inst) (v : Word)
  /-- `rd TI0R` (R352) -/
  | rdTI0R (i : Inst)
  /-- `wr TI0R` (R353) -/
  | wrTI0R (i : Inst) (v : Word)
  /-- `rd TDT0R` (R354) -/
  | rdTDT0R (i : Inst)
  /-- `wr TDT0R` (R354) -/
  | wrTDT0R (i : Inst) (v : Word)
  /-- `rd TDL0R` (R355) -/
  | rdTDL0R (i : Inst)
  /-- `wr TDL0R` (R355) -/
  | wrTDL0R (i : Inst) (v : Word)
  /-- `rd TDH0R` (R355) -/
  | rdTDH0R (i : Inst)
  /-- `wr TDH0R` (R355) -/
  | wrTDH0R (i : Inst) (v : Word)
  /-- `rd TI1R` (R352) -/
  | rdTI1R (i : Inst)
  /-- `wr TI1R` (R353) -/
  | wrTI1R (i : Inst) (v : Word)
  /-- `rd TDT1R` (R354) -/
  | rdTDT1R (i : Inst)
  /-- `wr TDT1R` (R354) -/
  | wrTDT1R (i : Inst) (v : Word)
  /-- `rd TDL1R` (R355) -/
  | rdTDL1R (i : Inst)
  /-- `wr TDL1R` (R355) -/
  | wrTDL1R (i : Inst) (v : Word)
  /-- `rd TDH1R` (R355) -/
  | rdTDH1R (i : Inst)
  /-- `wr TDH1R` (R355) -/
  | wrTDH1R (i : Inst) (v : Word)
  /-- `rd TI2R` (R352) -/
  | rdTI2R (i : Inst)
  /-- `wr TI2R` (R353) -/
  | wrTI2R (i : Inst) (v : Word)
  /-- `rd TDT2R` (R354) -/
  | rdTDT2R (i : Inst)
  /-- `wr TDT2R` (R354) -/
  | wrTDT2R (i : Inst) (v : Word)
  /-- `rd TDL2R` (R355) -/
  | rdTDL2R (i : Inst)
  /-- `wr TDL2R` (R355) -/
  | wrTDL2R (i : Inst) (v : Word)
  /-- `rd TDH2R` (R355) -/
  | rdTDH2R (i : Inst)
  /-- `wr TDH2R` (R355) -/
  | wrTDH2R (i : Inst) (v : Word)
  /-- `rd RI0R` (R402) -/
  | rdRI0R (i : Inst)
  /-- `wr RI0R` (R403) -/
  | wrRI0R (i : Inst) (v : Word)
  /-- `rd RDT0R` (R402) -/
  | rdRDT0R (i : Inst)
  /-- `wr RDT0R` (R403) -/
  | wrRDT0R (i : Inst) (v : Word)
  /-- `rd RDL0R` (R402) -/
  | rdRDL0R (i : Inst)
  /-- `wr RDL0R` (R403) -/
  | wrRDL0R (i : Inst) (v : Word)
  /-- `rd RDH0R` (R402) -/
  | rdRDH0R (i : Inst)
  /-- `wr RDH0R` (R403) -/
  | wrRDH0R (i : Inst) (v : Word)
  /-- `rd RI1R` (R402) -/
  | rdRI1R (i : Inst)
  /-- `wr RI1R` (R403) -/
  | wrRI1R (i : Inst) (v : Word)
  /-- `rd RDT1R` (R402) -/
  | rdRDT1R (i : Inst)
  /-- `wr RDT1R` (R403) -/
  | wrRDT1R (i : Inst) (v : Word)
  /-- `rd RDL1R` (R402) -/
  | rdRDL1R (i : Inst)
  /-- `wr RDL1R` (R403) -/
  | wrRDL1R (i : Inst) (v : Word)
  /-- `rd RDH1R` (R402) -/
  | rdRDH1R (i : Inst)
  /-- `wr RDH1R` (R403) -/
  | wrRDH1R (i : Inst) (v : Word)
  /-- `rd FMR` (R300) -/
  | rdFMR (i : Inst)
  /-- `wr FMR` (R300) -/
  | wrFMR (i : Inst) (v : Word)
  /-- `rd FM1R` (R301) -/
  | rdFM1R (i : Inst)
  /-- `wr FM1R` (R301) -/
  | wrFM1R (i : Inst) (v : Word)
  /-- `rd FS1R` (R301) -/
  | rdFS1R (i : Inst)
  /-- `wr FS1R` (R301) -/
  | wrFS1R (i : Inst) (v : Word)
  /-- `rd FFA1R` (R301) -/
  | rdFFA1R (i : Inst)
  /-- `wr FFA1R` (R301) -/
  | wrFFA1R (i : Inst) (v : Word)
  /-- `rd FA1R` (R302) -/
  | rdFA1R (i : Inst)
  /-- `wr FA1R` (R302) -/
  | wrFA1R (i : Inst) (v : Word)
  /-- `rd F0R1` (R303) -/
  | rdF0R1 (i : Inst)
  /-- `wr F0R1` (R303) -/
  | wrF0R1 (i : Inst) (v : Word)
  /-- `rd F0R2` (R303) -/
  | rdF0R2 (i : Inst)
  /-- `wr F0R2` (R303) -/
  | wrF0R2 (i : Inst) (v : Word)
  /-- `rd F1R1` (R303) -/
  | rdF1R1 (i : Inst)
  /-- `wr F1R1` (R303) -/
  | wrF1R1 (i : Inst) (v : Word)
  /-- `rd F1R2` (R303) -/
  | rdF1R2 (i : Inst)
  /-- `wr F1R2` (R303) -/
  | wrF1R2 (i : Inst) (v : Word)
  /-- `rd F2R1` (R303) -/
  | rdF2R1 (i : Inst)
  /-- `wr F2R1` (R303) -/
  | wrF2R1 (i : Inst) (v : Word)
  /-- `rd F2R2` (R303) -/
  | rdF2R2 (i : Inst)
  /-- `wr F2R2` (R303) -/
  | wrF2R2 (i : Inst) (v : Word)
  /-- `rd F3R1` (R303) -/
  | rdF3R1 (i : Inst)
  /-- `wr F3R1` (R303) -/
  | wrF3R1 (i : Inst) (v : Word)
  /-- `rd F3R2` (R303) -/
  | rdF3R2 (i : Inst)
  /-- `wr F3R2` (R303) -/
  | wrF3R2 (i : Inst) (v : Word)
  /-- `rd F4R1` (R303) -/
  | rdF4R1 (i : Inst)
  /-- `wr F4R1` (R303) -/
  | wrF4R1 (i : Inst) (v : Word)
  /-- `rd F4R2` (R303) -/
  | rdF4R2 (i : Inst)
  /-- `wr F4R2` (R303) -/
  | wrF4R2 (i : Inst) (v : Word)
  /-- `rd F5R1` (R303) -/
  | rdF5R1 (i : Inst)
  /-- `wr F5R1` (R303) -/
  | wrF5R1 (i : Inst) (v : Word)
  /-- `rd F5R2` (R303) -/
  | rdF5R2 (i : Inst)
  /-- `wr F5R2` (R303) -/
  | wrF5R2 (i : Inst) (v : Word)
  /-- `rd F6R1` (R303) -/
  | rdF6R1 (i : Inst)
  /-- `wr F6R1` (R303) -/
  | wrF6R1 (i : Inst) (v : Word)
  /-- `rd F6R2` (R303) -/
  | rdF6R2 (i : Inst)
  /-- `wr F6R2` (R303) -/
  | wrF6R2 (i : Inst) (v : Word)
  /-- `rd F7R1` (R303) -/
  | rdF7R1 (i : Inst)
  /-- `wr F7R1` (R303) -/
  | wrF7R1 (i : Inst) (v : Word)
  /-- `rd F7R2` (R303) -/
  | rdF7R2 (i : Inst)
  /-- `wr F7R2` (R303) -/
  | wrF7R2 (i : Inst) (v : Word)
  /-- `rd F8R1` (R303) -/
  | rdF8R1 (i : Inst)
  /-- `wr F8R1` (R303) -/
  | wrF8R1 (i : Inst) (v : Word)
  /-- `rd F8R2` (R303) -/
  | rdF8R2 (i : Inst)
  /-- `wr F8R2` (R303) -/
  | wrF8R2 (i : Inst) (v : Word)
  /-- `rd F9R1` (R303) -/
  | rdF9R1 (i : Inst)
  /-- `wr F9R1` (R303) -/
  | wrF9R1 (i : Inst) (v : Word)
  /-- `rd F9R2` (R303) -/
  | rdF9R2 (i : Inst)
  /-- `wr F9R2` (R303) -/
  | wrF9R2 (i : Inst) (v : Word)
  /-- `rd F10R1` (R303) -/
  | rdF10R1 (i : Inst)
  /-- `wr F10R1` (R303) -/
  | wrF10R1 (i : Inst) (v : Word)
  /-- `rd F10R2` (R303) -/
  | rdF10R2 (i : Inst)
  /-- `wr F10R2` (R303) -/
  | wrF10R2 (i : Inst) (v : Word)
  /-- `rd F11R1` (R303) -/
  | rdF11R1 (i : Inst)
  /-- `wr F11R1` (R303) -/
  | wrF11R1 (i : Inst) (v : Word)
  /-- `rd F11R2` (R303) -/
  | rdF11R2 (i : Inst)
  /-- `wr F11R2` (R303) -/
  | wrF11R2 (i : Inst) (v : Word)
  /-- `rd F12R1` (R303) -/
  | rdF12R1 (i : Inst)
  /-- `wr F12R1` (R303) -/
  | wrF12R1 (i : Inst) (v : Word)
  /-- `rd F12R2` (R303) -/
  | rdF12R2 (i : Inst)
  /-- `wr F12R2` (R303) -/
  | wrF12R2 (i : Inst) (v : Word)
  /-- `rd F13R1` (R303) -/
  | rdF13R1 (i : Inst)
  /-- `wr F13R1` (R303) -/
  | wrF13R1 (i : Inst) (v : Word)
  /-- `rd F13R2` (R303) -/
  | rdF13R2 (i : Inst)
  /-- `wr F13R2` (R303) -/
  | wrF13R2 (i : Inst) (v : Word)
  /-- `rd F14R1` (R303) -/
  | rdF14R1 (i : Inst)
  /-- `wr F14R1` (R303) -/
  | wrF14R1 (i : Inst) (v : Word)
  /-- `rd F14R2` (R303) -/
  | rdF14R2 (i : Inst)
  /-- `wr F14R2` (R303) -/
  | wrF14R2 (i : Inst) (v : Word)
  /-- `rd F15R1` (R303) -/
  | rdF15R1 (i : Inst)
  /-- `wr F15R1` (R303) -/
  | wrF15R1 (i : Inst) (v : Word)
  /-- `rd F15R2` (R303) -/
  | rdF15R2 (i : Inst)
  /-- `wr F15R2` (R303) -/
  | wrF15R2 (i : Inst) (v : Word)
  /-- `rd F16R1` (R303) -/
  | rdF16R1 (i : Inst)
  /-- `wr F16R1` (R303) -/
  | wrF16R1 (i : Inst) (v : Word)
  /-- `rd F16R2` (R303) -/
  | rdF16R2 (i : Inst)
  /-- `wr F16R2` (R303) -/
  | wrF16R2 (i : Inst) (v : Word)
  /-- `rd F17R1` (R303) -/
  | rdF17R1 (i : Inst)
  /-- `wr F17R1` (R303) -/
  | wrF17R1 (i : Inst) (v : Word)
  /-- `rd F17R2` (R303) -/
  | rdF17R2 (i : Inst)
  /-- `wr F17R2` (R303) -/
  | wrF17R2 (i : Inst) (v : Word)
  /-- `rd F18R1` (R303) -/
  | rdF18R1 (i : Inst)
  /-- `wr F18R1` (R303) -/
  | wrF18R1 (i : Inst) (v : Word)
  /-- `rd F18R2` (R303) -/
  | rdF18R2 (i : Inst)
  /-- `wr F18R2` (R303) -/
  | wrF18R2 (i : Inst) (v : Word)
  /-- `rd F19R1` (R303) -/
  | rdF19R1 (i : Inst)
  /-- `wr F19R1` (R303) -/
  | wrF19R1 (i : Inst) (v : Word)
  /-- `rd F19R2` (R303) -/
  | rdF19R2 (i : Inst)
  /-- `wr F19R2` (R303) -/
  | wrF19R2 (i : Inst) (v : Word)
  /-- `rd F20R1` (R303) -/
  | rdF20R1 (i : Inst)
  /-- `wr F20R1` (R303) -/
  | wrF20R1 (i : Inst) (v : Word)
  /-- `rd F20R2` (R303) -/
  | rdF20R2 (i : Inst)
  /-- `wr F20R2` (R303) -/
  | wrF20R2 (i : Inst) (v : Word)
  /-- `rd F21R1` (R303) -/
  | rdF21R1 (i : Inst)
  /-- `wr F21R1` (R303) -/
  | wrF21R1 (i : Inst) (v : Word)
  /-- `rd F21R2` (R303) -/
  | rdF21R2 (i : Inst)
  /-- `wr F21R2` (R303) -/
  | wrF21R2 (i : Inst) (v : Word)
  /-- `rd F22R1` (R303) -/
  | rdF22R1 (i : Inst)
  /-- `wr F22R1` (R303) -/
  | wrF22R1 (i : Inst) (v : Word)
  /-- `rd F22R2` (R303) -/
  | rdF22R2 (i : Inst)
  /-- `wr F22R2` (R303) -/
  | wrF22R2 (i : Inst) (v : Word)
  /-- `rd F23R1` (R303) -/
  | rdF23R1 (i : Inst)
  /-- `wr F23R1` (R303) -/
  | wrF23R1 (i : Inst) (v : Word)
  /-- `rd F23R2` (R303) -/
  | rdF23R2 (i : Inst)
  /-- `wr F23R2` (R303) -/
  | wrF23R2 (i : Inst) (v : Word)
  /-- `rd F24R1` (R303) -/
  | rdF24R1 (i : Inst)
  /-- `wr F24R1` (R303) -/
  | wrF24R1 (i : Inst) (v : Word)
  /-- `rd F24R2` (R303) -/
  | rdF24R2 (i : Inst)
  /-- `wr F24R2` (R303) -/
  | wrF24R2 (i : Inst) (v : Word)
  /-- `rd F25R1` (R303) -/
  | rdF25R1 (i : Inst)
  /-- `wr F25R1` (R303) -/
  | wrF25R1 (i : Inst) (v : Word)
  /-- `rd F25R2` (R303) -/
  | rdF25R2 (i : Inst)
  /-- `wr F25R2` (R303) -/
  | wrF25R2 (i : Inst) (v : Word)
  /-- `rd F26R1` (R303) -/
  | rdF26R1 (i : Inst)
  /-- `wr F26R1` (R303) -/
  | wrF26R1 (i : Inst) (v : Word)
  /-- `rd F26R2` (R303) -/
  | rdF26R2 (i : Inst)
  /-- `wr F26R2` (R303) -/
  | wrF26R2 (i : Inst) (v : Word)
  /-- `rd F27R1` (R303) -/
  | rdF27R1 (i : Inst)
  /-- `wr F27R1` (R303) -/
  | wrF27R1 (i : Inst) (v : Word)
  /-- `rd F27R2` (R303) -/
  | rdF27R2 (i : Inst)
  /-- `wr F27R2` (R303) -/
  | wrF27R2 (i : Inst) (v : Word)
  /-- `op reset` (R210) -/
  | opReset (i : Inst)
  /-- `op enterInit` (R211) -/
  | opEnterInit (i : Inst)
  /-- `op leaveInit` (R212) -/
  | opLeaveInit (i : Inst)
  /-- `op enterSleep` (R213) -/
  | opEnterSleep (i : Inst)
  /-- `op leaveSleep` (R214) -/
  | opLeaveSleep (i : Inst)
  /-- `op isInit` (R215) -/
  | opIsInit (i : Inst)
  /-- `op isSleep` (R216) -/
  | opIsSleep (i : Inst)
  /-- `op enterInitBlocking` (R217) -/
  | opEnterInitBlocking (i : Inst)
  /-- `op leaveInitBlocking` (R218) -/
  | opLeaveInitBlocking (i : Inst)
  /-- `op computeTiming` (R254) -/
  | opComputeTiming (rate : Nat) (sp : Nat) (pclk : Nat)
  /-- `op applyTiming` (R257) -/
  | opApplyTiming (i : Inst) (t : Timing)
  /-- `op getEffectiveBitrate` (R258) -/
  | opGetEffectiveBitrate (t : Timing) (pclk : Nat)
  /-- `op configureFilter` (R314) -/
  | opConfigureFilter (i : Inst) (bank : Nat) (scale32 : Bool) (listMode : Bool) (reg1 : Word) (reg2 : Word) (fifoId : Nat) (enable : Bool)
  /-- `op filterIdMask16` (R315) -/
  | opFilterIdMask16 (i : Inst) (bank : Nat) (id1 : Half) (mask1 : Half) (id2 : Half) (mask2 : Half) (fifoId : Nat) (enable : Bool)
  /-- `op filterIdMask32` (R316) -/
  | opFilterIdMask32 (i : Inst) (bank : Nat) (id : Word) (mask : Word) (fifoId : Nat) (enable : Bool)
  /-- `op filterIdList16` (R317) -/
  | opFilterIdList16 (i : Inst) (bank : Nat) (id1 : Half) (id2 : Half) (id3 : Half) (id4 : Half) (fifoId : Nat) (enable : Bool)
  /-- `op filterIdList32` (R318) -/
  | opFilterIdList32 (i : Inst) (bank : Nat) (id1 : Word) (id2 : Word) (fifoId : Nat) (enable : Bool)
  /-- `op getEmptyMailbox` (R359) -/
  | opGetEmptyMailbox (i : Inst)
  /-- `op transmit` (R360) -/
  | opTransmit (i : Inst) (id : Word) (ext : Bool) (rtr : Bool) (length : Nat) (data : List Byte)
  /-- `op availableMailbox` (R363) -/
  | opAvailableMailbox (i : Inst)
  /-- `op receive` (R406) -/
  | opReceive (i : Inst) (fifoId : Nat) (autoRelease : Bool)
  /-- `op releaseFifo` (R407) -/
  | opReleaseFifo (i : Inst) (fifoId : Nat)
  deriving DecidableEq, Repr

end Sys2Proof
end

