-- ==== Sys2Proof/WellFormed.lean ====
section
/-! DEFINITION. Well-formed instructions: the operand ranges the rules give (`sp` 0..255, R254; `length` 0..255 and
enough data, R360) and the ranges the model's own operand bytes can carry (log 8). Every operand value outside a
rule's range that the rule gives an outcome to (a bank, a FIFO number, a timing out of range) is well formed. -/

namespace Sys2Proof

/-- The bound of a 32-bit operand (log 8). -/
def word32Bound : Nat := 2 ^ 32

/-- The bound of a 16-bit operand (log 8). -/
def word16Bound : Nat := 2 ^ 16

/-- The bound of an 8-bit operand (log 8). -/
def byteBound : Nat := 2 ^ 8

/-- The fields of a timing that the operand bytes can carry (log 8). Whether the timing is VALID is R257's check. -/
def Timing.wellFormed (t : Timing) : Bool :=
  t.ts1 < word16Bound && t.ts2 < word16Bound && t.brp < word16Bound && t.sjw < word16Bound

/-- A bank number and a FIFO number that the operand bytes can carry (log 8). -/
def bankWellFormed (bank fifoId : Nat) : Bool :=
  bank < byteBound && fifoId < byteBound

/-- The operands of `transmit` (R360): `length` 0..255, at least `min(length, 8)` data bytes, and no more than a
count byte can announce (log 8). -/
def payloadWellFormed (length : Nat) (data : List Byte) : Bool :=
  length < byteBound && data.length < byteBound && min length 8 ≤ data.length

/-- The well-formedness check. A register access has no operand that could be out of range. -/
def Instr.wellFormed : Instr → Bool
  | .rdMCR _ => true
  | .wrMCR _ _ => true
  | .rdMSR _ => true
  | .wrMSR _ _ => true
  | .rdTSR _ => true
  | .wrTSR _ _ => true
  | .rdRF0R _ => true
  | .wrRF0R _ _ => true
  | .rdRF1R _ => true
  | .wrRF1R _ _ => true
  | .rdIER _ => true
  | .wrIER _ _ => true
  | .rdESR _ => true
  | .wrESR _ _ => true
  | .rdBTR _ => true
  | .wrBTR _ _ => true
  | .rdTI0R _ => true
  | .wrTI0R _ _ => true
  | .rdTDT0R _ => true
  | .wrTDT0R _ _ => true
  | .rdTDL0R _ => true
  | .wrTDL0R _ _ => true
  | .rdTDH0R _ => true
  | .wrTDH0R _ _ => true
  | .rdTI1R _ => true
  | .wrTI1R _ _ => true
  | .rdTDT1R _ => true
  | .wrTDT1R _ _ => true
  | .rdTDL1R _ => true
  | .wrTDL1R _ _ => true
  | .rdTDH1R _ => true
  | .wrTDH1R _ _ => true
  | .rdTI2R _ => true
  | .wrTI2R _ _ => true
  | .rdTDT2R _ => true
  | .wrTDT2R _ _ => true
  | .rdTDL2R _ => true
  | .wrTDL2R _ _ => true
  | .rdTDH2R _ => true
  | .wrTDH2R _ _ => true
  | .rdRI0R _ => true
  | .wrRI0R _ _ => true
  | .rdRDT0R _ => true
  | .wrRDT0R _ _ => true
  | .rdRDL0R _ => true
  | .wrRDL0R _ _ => true
  | .rdRDH0R _ => true
  | .wrRDH0R _ _ => true
  | .rdRI1R _ => true
  | .wrRI1R _ _ => true
  | .rdRDT1R _ => true
  | .wrRDT1R _ _ => true
  | .rdRDL1R _ => true
  | .wrRDL1R _ _ => true
  | .rdRDH1R _ => true
  | .wrRDH1R _ _ => true
  | .rdFMR _ => true
  | .wrFMR _ _ => true
  | .rdFM1R _ => true
  | .wrFM1R _ _ => true
  | .rdFS1R _ => true
  | .wrFS1R _ _ => true
  | .rdFFA1R _ => true
  | .wrFFA1R _ _ => true
  | .rdFA1R _ => true
  | .wrFA1R _ _ => true
  | .rdF0R1 _ => true
  | .wrF0R1 _ _ => true
  | .rdF0R2 _ => true
  | .wrF0R2 _ _ => true
  | .rdF1R1 _ => true
  | .wrF1R1 _ _ => true
  | .rdF1R2 _ => true
  | .wrF1R2 _ _ => true
  | .rdF2R1 _ => true
  | .wrF2R1 _ _ => true
  | .rdF2R2 _ => true
  | .wrF2R2 _ _ => true
  | .rdF3R1 _ => true
  | .wrF3R1 _ _ => true
  | .rdF3R2 _ => true
  | .wrF3R2 _ _ => true
  | .rdF4R1 _ => true
  | .wrF4R1 _ _ => true
  | .rdF4R2 _ => true
  | .wrF4R2 _ _ => true
  | .rdF5R1 _ => true
  | .wrF5R1 _ _ => true
  | .rdF5R2 _ => true
  | .wrF5R2 _ _ => true
  | .rdF6R1 _ => true
  | .wrF6R1 _ _ => true
  | .rdF6R2 _ => true
  | .wrF6R2 _ _ => true
  | .rdF7R1 _ => true
  | .wrF7R1 _ _ => true
  | .rdF7R2 _ => true
  | .wrF7R2 _ _ => true
  | .rdF8R1 _ => true
  | .wrF8R1 _ _ => true
  | .rdF8R2 _ => true
  | .wrF8R2 _ _ => true
  | .rdF9R1 _ => true
  | .wrF9R1 _ _ => true
  | .rdF9R2 _ => true
  | .wrF9R2 _ _ => true
  | .rdF10R1 _ => true
  | .wrF10R1 _ _ => true
  | .rdF10R2 _ => true
  | .wrF10R2 _ _ => true
  | .rdF11R1 _ => true
  | .wrF11R1 _ _ => true
  | .rdF11R2 _ => true
  | .wrF11R2 _ _ => true
  | .rdF12R1 _ => true
  | .wrF12R1 _ _ => true
  | .rdF12R2 _ => true
  | .wrF12R2 _ _ => true
  | .rdF13R1 _ => true
  | .wrF13R1 _ _ => true
  | .rdF13R2 _ => true
  | .wrF13R2 _ _ => true
  | .rdF14R1 _ => true
  | .wrF14R1 _ _ => true
  | .rdF14R2 _ => true
  | .wrF14R2 _ _ => true
  | .rdF15R1 _ => true
  | .wrF15R1 _ _ => true
  | .rdF15R2 _ => true
  | .wrF15R2 _ _ => true
  | .rdF16R1 _ => true
  | .wrF16R1 _ _ => true
  | .rdF16R2 _ => true
  | .wrF16R2 _ _ => true
  | .rdF17R1 _ => true
  | .wrF17R1 _ _ => true
  | .rdF17R2 _ => true
  | .wrF17R2 _ _ => true
  | .rdF18R1 _ => true
  | .wrF18R1 _ _ => true
  | .rdF18R2 _ => true
  | .wrF18R2 _ _ => true
  | .rdF19R1 _ => true
  | .wrF19R1 _ _ => true
  | .rdF19R2 _ => true
  | .wrF19R2 _ _ => true
  | .rdF20R1 _ => true
  | .wrF20R1 _ _ => true
  | .rdF20R2 _ => true
  | .wrF20R2 _ _ => true
  | .rdF21R1 _ => true
  | .wrF21R1 _ _ => true
  | .rdF21R2 _ => true
  | .wrF21R2 _ _ => true
  | .rdF22R1 _ => true
  | .wrF22R1 _ _ => true
  | .rdF22R2 _ => true
  | .wrF22R2 _ _ => true
  | .rdF23R1 _ => true
  | .wrF23R1 _ _ => true
  | .rdF23R2 _ => true
  | .wrF23R2 _ _ => true
  | .rdF24R1 _ => true
  | .wrF24R1 _ _ => true
  | .rdF24R2 _ => true
  | .wrF24R2 _ _ => true
  | .rdF25R1 _ => true
  | .wrF25R1 _ _ => true
  | .rdF25R2 _ => true
  | .wrF25R2 _ _ => true
  | .rdF26R1 _ => true
  | .wrF26R1 _ _ => true
  | .rdF26R2 _ => true
  | .wrF26R2 _ _ => true
  | .rdF27R1 _ => true
  | .wrF27R1 _ _ => true
  | .rdF27R2 _ => true
  | .wrF27R2 _ _ => true
  | .opReset _ => true
  | .opEnterInit _ => true
  | .opLeaveInit _ => true
  | .opEnterSleep _ => true
  | .opLeaveSleep _ => true
  | .opIsInit _ => true
  | .opIsSleep _ => true
  | .opEnterInitBlocking _ => true
  | .opLeaveInitBlocking _ => true
  | .opComputeTiming rate sp pclk => rate < word32Bound && sp ≤ 255 && pclk < word32Bound
  | .opApplyTiming _ t => t.wellFormed
  | .opGetEffectiveBitrate t pclk => t.wellFormed && pclk < word32Bound
  | .opConfigureFilter _ bank _ _ _ _ fifoId _ => bankWellFormed bank fifoId
  | .opFilterIdMask16 _ bank _ _ _ _ fifoId _ => bankWellFormed bank fifoId
  | .opFilterIdMask32 _ bank _ _ fifoId _ => bankWellFormed bank fifoId
  | .opFilterIdList16 _ bank _ _ _ _ fifoId _ => bankWellFormed bank fifoId
  | .opFilterIdList32 _ bank _ _ fifoId _ => bankWellFormed bank fifoId
  | .opGetEmptyMailbox _ => true
  | .opTransmit _ _ _ _ length data => payloadWellFormed length data
  | .opAvailableMailbox _ => true
  | .opReceive _ fifoId _ => fifoId < byteBound
  | .opReleaseFifo _ fifoId => fifoId < byteBound

end Sys2Proof
end

