-- ==== Sys2Proof/Decode.lean ====
section
/-! DEFINITION. The decoder (30_encoding.md R151, R154), total on any bytes and rejecting by name, and after it the
encoder, written from the same tables. The access word and the selector are the spec's; how the operands follow them
as bytes is the model's (log 7): little-endian, in the order of the constructor's arguments. -/

namespace Sys2Proof

/-! ## Register offsets -/

/-- The number x of a mailbox. -/
def MbIx.toNat : MbIx → Nat
  | .m0 => 0
  | .m1 => 1
  | .m2 => 2

/-- The number x of a FIFO. -/
def FifoIx.toNat : FifoIx → Nat
  | .f0 => 0
  | .f1 => 1

/-- The FIFO with number x, if there is one (R314, R406, R407: "not in {0, 1}"). -/
def FifoIx.ofNat? : Nat → Option FifoIx
  | 0 => some .f0
  | 1 => some .f1
  | _ => none

/-- 0 for FbR1, 1 for FbR2. -/
def WordIx.toNat : WordIx → Nat
  | .r1 => 0
  | .r2 => 1

/-- The byte offset of a register in its window (R34). -/
def Reg.offset : Reg → Nat
  | .mcr => 0x000
  | .msr => 0x004
  | .tsr => 0x008
  | .rfr x => 0x00C + 4 * x.toNat
  | .ier => 0x014
  | .esr => 0x018
  | .btr => 0x01C
  | .tir x => 0x180 + 0x10 * x.toNat
  | .tdtr x => 0x184 + 0x10 * x.toNat
  | .tdlr x => 0x188 + 0x10 * x.toNat
  | .tdhr x => 0x18C + 0x10 * x.toNat
  | .rir x => 0x1B0 + 0x10 * x.toNat
  | .rdtr x => 0x1B4 + 0x10 * x.toNat
  | .rdlr x => 0x1B8 + 0x10 * x.toNat
  | .rdhr x => 0x1BC + 0x10 * x.toNat
  | .fmr => 0x200
  | .fm1r => 0x204
  | .fs1r => 0x20C
  | .ffa1r => 0x214
  | .fa1r => 0x21C
  | .fr b k => 0x240 + 8 * b.val + 4 * k.toNat

/-- The four registers of a transmit mailbox by their number k (R151). -/
def mailboxReg (x : MbIx) (k : Nat) : Reg :=
  if k = 0 then .tir x else if k = 1 then .tdtr x else if k = 2 then .tdlr x else .tdhr x

/-- The four registers of a FIFO's output mailbox by their number k (R151). -/
def outputReg (x : FifoIx) (k : Nat) : Reg :=
  if k = 0 then .rir x else if k = 1 then .rdtr x else if k = 2 then .rdlr x else .rdhr x

/-- The register at an offset that is a multiple of 4 (R151), for a part with 28 banks in the owner's window;
`none` is reserved (R152). The `NBANKS` and `FILTER_OWNER` parts of R151 are tested when the access is performed
(`Machine.decodedIn`), since they are parameters of the machine. -/
def Reg.ofOffset? (off : Nat) : Option Reg :=
  if off = 0x000 then some .mcr
  else if off = 0x004 then some .msr
  else if off = 0x008 then some .tsr
  else if off = 0x00C then some (.rfr .f0)
  else if off = 0x010 then some (.rfr .f1)
  else if off = 0x014 then some .ier
  else if off = 0x018 then some .esr
  else if off = 0x01C then some .btr
  else if 0x180 ≤ off && off ≤ 0x18F then some (mailboxReg .m0 (off / 4 % 4))
  else if 0x190 ≤ off && off ≤ 0x19F then some (mailboxReg .m1 (off / 4 % 4))
  else if 0x1A0 ≤ off && off ≤ 0x1AF then some (mailboxReg .m2 (off / 4 % 4))
  else if 0x1B0 ≤ off && off ≤ 0x1BF then some (outputReg .f0 (off / 4 % 4))
  else if 0x1C0 ≤ off && off ≤ 0x1CF then some (outputReg .f1 (off / 4 % 4))
  else if off = 0x200 then some .fmr
  else if off = 0x204 then some .fm1r
  else if off = 0x20C then some .fs1r
  else if off = 0x214 then some .ffa1r
  else if off = 0x21C then some .fa1r
  else if h : 0x240 ≤ off ∧ off < 0x240 + 8 * 28 then
    some (.fr ⟨(off - 0x240) / 8, by omega⟩ (if off / 4 % 2 = 0 then .r1 else .r2))
  else none

/-- The access word W ++ OFF of a register (R150). -/
def Reg.accessWord (r : Reg) (write : Bool) : BitVec 11 :=
  BitVec.ofNat 11 ((if write then 1024 else 0) + r.offset)

/-- A 32-bit read access of a register. -/
def Access.read (i : Inst) (r : Reg) : Access :=
  { inst := i, word := r.accessWord false, width := .w32, data := none }

/-- A 32-bit write access of a register. -/
def Access.write (i : Inst) (r : Reg) (v : Word) : Access :=
  { inst := i, word := r.accessWord true, width := .w32, data := some v }

/-! ## The instruction of a register access -/

/-- The instruction that reads word k of bank b. -/
def Instr.rdBank : Fin 28 → WordIx → Inst → Instr
  | ⟨0, _⟩, .r1 => .rdF0R1
  | ⟨0, _⟩, .r2 => .rdF0R2
  | ⟨1, _⟩, .r1 => .rdF1R1
  | ⟨1, _⟩, .r2 => .rdF1R2
  | ⟨2, _⟩, .r1 => .rdF2R1
  | ⟨2, _⟩, .r2 => .rdF2R2
  | ⟨3, _⟩, .r1 => .rdF3R1
  | ⟨3, _⟩, .r2 => .rdF3R2
  | ⟨4, _⟩, .r1 => .rdF4R1
  | ⟨4, _⟩, .r2 => .rdF4R2
  | ⟨5, _⟩, .r1 => .rdF5R1
  | ⟨5, _⟩, .r2 => .rdF5R2
  | ⟨6, _⟩, .r1 => .rdF6R1
  | ⟨6, _⟩, .r2 => .rdF6R2
  | ⟨7, _⟩, .r1 => .rdF7R1
  | ⟨7, _⟩, .r2 => .rdF7R2
  | ⟨8, _⟩, .r1 => .rdF8R1
  | ⟨8, _⟩, .r2 => .rdF8R2
  | ⟨9, _⟩, .r1 => .rdF9R1
  | ⟨9, _⟩, .r2 => .rdF9R2
  | ⟨10, _⟩, .r1 => .rdF10R1
  | ⟨10, _⟩, .r2 => .rdF10R2
  | ⟨11, _⟩, .r1 => .rdF11R1
  | ⟨11, _⟩, .r2 => .rdF11R2
  | ⟨12, _⟩, .r1 => .rdF12R1
  | ⟨12, _⟩, .r2 => .rdF12R2
  | ⟨13, _⟩, .r1 => .rdF13R1
  | ⟨13, _⟩, .r2 => .rdF13R2
  | ⟨14, _⟩, .r1 => .rdF14R1
  | ⟨14, _⟩, .r2 => .rdF14R2
  | ⟨15, _⟩, .r1 => .rdF15R1
  | ⟨15, _⟩, .r2 => .rdF15R2
  | ⟨16, _⟩, .r1 => .rdF16R1
  | ⟨16, _⟩, .r2 => .rdF16R2
  | ⟨17, _⟩, .r1 => .rdF17R1
  | ⟨17, _⟩, .r2 => .rdF17R2
  | ⟨18, _⟩, .r1 => .rdF18R1
  | ⟨18, _⟩, .r2 => .rdF18R2
  | ⟨19, _⟩, .r1 => .rdF19R1
  | ⟨19, _⟩, .r2 => .rdF19R2
  | ⟨20, _⟩, .r1 => .rdF20R1
  | ⟨20, _⟩, .r2 => .rdF20R2
  | ⟨21, _⟩, .r1 => .rdF21R1
  | ⟨21, _⟩, .r2 => .rdF21R2
  | ⟨22, _⟩, .r1 => .rdF22R1
  | ⟨22, _⟩, .r2 => .rdF22R2
  | ⟨23, _⟩, .r1 => .rdF23R1
  | ⟨23, _⟩, .r2 => .rdF23R2
  | ⟨24, _⟩, .r1 => .rdF24R1
  | ⟨24, _⟩, .r2 => .rdF24R2
  | ⟨25, _⟩, .r1 => .rdF25R1
  | ⟨25, _⟩, .r2 => .rdF25R2
  | ⟨26, _⟩, .r1 => .rdF26R1
  | ⟨26, _⟩, .r2 => .rdF26R2
  | ⟨27, _⟩, .r1 => .rdF27R1
  | ⟨27, _⟩, .r2 => .rdF27R2
  | ⟨_ + 28, h⟩, _ => absurd h (by omega)

/-- The instruction that writes word k of bank b. -/
def Instr.wrBank : Fin 28 → WordIx → Inst → Word → Instr
  | ⟨0, _⟩, .r1 => .wrF0R1
  | ⟨0, _⟩, .r2 => .wrF0R2
  | ⟨1, _⟩, .r1 => .wrF1R1
  | ⟨1, _⟩, .r2 => .wrF1R2
  | ⟨2, _⟩, .r1 => .wrF2R1
  | ⟨2, _⟩, .r2 => .wrF2R2
  | ⟨3, _⟩, .r1 => .wrF3R1
  | ⟨3, _⟩, .r2 => .wrF3R2
  | ⟨4, _⟩, .r1 => .wrF4R1
  | ⟨4, _⟩, .r2 => .wrF4R2
  | ⟨5, _⟩, .r1 => .wrF5R1
  | ⟨5, _⟩, .r2 => .wrF5R2
  | ⟨6, _⟩, .r1 => .wrF6R1
  | ⟨6, _⟩, .r2 => .wrF6R2
  | ⟨7, _⟩, .r1 => .wrF7R1
  | ⟨7, _⟩, .r2 => .wrF7R2
  | ⟨8, _⟩, .r1 => .wrF8R1
  | ⟨8, _⟩, .r2 => .wrF8R2
  | ⟨9, _⟩, .r1 => .wrF9R1
  | ⟨9, _⟩, .r2 => .wrF9R2
  | ⟨10, _⟩, .r1 => .wrF10R1
  | ⟨10, _⟩, .r2 => .wrF10R2
  | ⟨11, _⟩, .r1 => .wrF11R1
  | ⟨11, _⟩, .r2 => .wrF11R2
  | ⟨12, _⟩, .r1 => .wrF12R1
  | ⟨12, _⟩, .r2 => .wrF12R2
  | ⟨13, _⟩, .r1 => .wrF13R1
  | ⟨13, _⟩, .r2 => .wrF13R2
  | ⟨14, _⟩, .r1 => .wrF14R1
  | ⟨14, _⟩, .r2 => .wrF14R2
  | ⟨15, _⟩, .r1 => .wrF15R1
  | ⟨15, _⟩, .r2 => .wrF15R2
  | ⟨16, _⟩, .r1 => .wrF16R1
  | ⟨16, _⟩, .r2 => .wrF16R2
  | ⟨17, _⟩, .r1 => .wrF17R1
  | ⟨17, _⟩, .r2 => .wrF17R2
  | ⟨18, _⟩, .r1 => .wrF18R1
  | ⟨18, _⟩, .r2 => .wrF18R2
  | ⟨19, _⟩, .r1 => .wrF19R1
  | ⟨19, _⟩, .r2 => .wrF19R2
  | ⟨20, _⟩, .r1 => .wrF20R1
  | ⟨20, _⟩, .r2 => .wrF20R2
  | ⟨21, _⟩, .r1 => .wrF21R1
  | ⟨21, _⟩, .r2 => .wrF21R2
  | ⟨22, _⟩, .r1 => .wrF22R1
  | ⟨22, _⟩, .r2 => .wrF22R2
  | ⟨23, _⟩, .r1 => .wrF23R1
  | ⟨23, _⟩, .r2 => .wrF23R2
  | ⟨24, _⟩, .r1 => .wrF24R1
  | ⟨24, _⟩, .r2 => .wrF24R2
  | ⟨25, _⟩, .r1 => .wrF25R1
  | ⟨25, _⟩, .r2 => .wrF25R2
  | ⟨26, _⟩, .r1 => .wrF26R1
  | ⟨26, _⟩, .r2 => .wrF26R2
  | ⟨27, _⟩, .r1 => .wrF27R1
  | ⟨27, _⟩, .r2 => .wrF27R2
  | ⟨_ + 28, h⟩, _ => absurd h (by omega)

/-- The instruction that reads a register. -/
def Instr.rd : Reg → Inst → Instr
  | .mcr => .rdMCR
  | .msr => .rdMSR
  | .tsr => .rdTSR
  | .rfr .f0 => .rdRF0R
  | .rfr .f1 => .rdRF1R
  | .ier => .rdIER
  | .esr => .rdESR
  | .btr => .rdBTR
  | .tir .m0 => .rdTI0R
  | .tir .m1 => .rdTI1R
  | .tir .m2 => .rdTI2R
  | .tdtr .m0 => .rdTDT0R
  | .tdtr .m1 => .rdTDT1R
  | .tdtr .m2 => .rdTDT2R
  | .tdlr .m0 => .rdTDL0R
  | .tdlr .m1 => .rdTDL1R
  | .tdlr .m2 => .rdTDL2R
  | .tdhr .m0 => .rdTDH0R
  | .tdhr .m1 => .rdTDH1R
  | .tdhr .m2 => .rdTDH2R
  | .rir .f0 => .rdRI0R
  | .rir .f1 => .rdRI1R
  | .rdtr .f0 => .rdRDT0R
  | .rdtr .f1 => .rdRDT1R
  | .rdlr .f0 => .rdRDL0R
  | .rdlr .f1 => .rdRDL1R
  | .rdhr .f0 => .rdRDH0R
  | .rdhr .f1 => .rdRDH1R
  | .fmr => .rdFMR
  | .fm1r => .rdFM1R
  | .fs1r => .rdFS1R
  | .ffa1r => .rdFFA1R
  | .fa1r => .rdFA1R
  | .fr b k => Instr.rdBank b k

/-- The instruction that writes a register. -/
def Instr.wr : Reg → Inst → Word → Instr
  | .mcr => .wrMCR
  | .msr => .wrMSR
  | .tsr => .wrTSR
  | .rfr .f0 => .wrRF0R
  | .rfr .f1 => .wrRF1R
  | .ier => .wrIER
  | .esr => .wrESR
  | .btr => .wrBTR
  | .tir .m0 => .wrTI0R
  | .tir .m1 => .wrTI1R
  | .tir .m2 => .wrTI2R
  | .tdtr .m0 => .wrTDT0R
  | .tdtr .m1 => .wrTDT1R
  | .tdtr .m2 => .wrTDT2R
  | .tdlr .m0 => .wrTDL0R
  | .tdlr .m1 => .wrTDL1R
  | .tdlr .m2 => .wrTDL2R
  | .tdhr .m0 => .wrTDH0R
  | .tdhr .m1 => .wrTDH1R
  | .tdhr .m2 => .wrTDH2R
  | .rir .f0 => .wrRI0R
  | .rir .f1 => .wrRI1R
  | .rdtr .f0 => .wrRDT0R
  | .rdtr .f1 => .wrRDT1R
  | .rdlr .f0 => .wrRDL0R
  | .rdlr .f1 => .wrRDL1R
  | .rdhr .f0 => .wrRDH0R
  | .rdhr .f1 => .wrRDH1R
  | .fmr => .wrFMR
  | .fm1r => .wrFM1R
  | .fs1r => .wrFS1R
  | .ffa1r => .wrFFA1R
  | .fa1r => .wrFA1R
  | .fr b k => Instr.wrBank b k

/-! ## Reading bytes -/

/-- Why bytes are no instruction. The first two belong to an access and become the faults of R124 and R152, the
third is R154's refusal; the others say that the bytes are no host request at all (log 7, log 11). -/
inductive DecodeError where
  | badAccessWidth (a : Access)
  | reservedOffset (a : Access)
  | unknownSelector (selector : Byte)
  | truncated
  | badAccessWord
  | badInstanceByte
  | badWidthCode
  | badFlag
  | shortPayload
  deriving DecidableEq, Repr

/-- A reader of bytes. -/
abbrev Parse := StateT (List Byte) (Except DecodeError)

/-- The next byte. -/
def getByte : Parse Byte := fun bs =>
  match bs with
  | [] => .error .truncated
  | b :: rest => .ok (b, rest)

/-- The next `n` bytes as an unsigned number, little-endian (log 7). -/
def getNat : Nat → Parse Nat
  | 0 => pure 0
  | n + 1 => do
    let b ← getByte
    let m ← getNat n
    pure (b.toNat + 256 * m)

/-- The next `n` bytes. -/
def getBytes : Nat → Parse (List Byte)
  | 0 => pure []
  | n + 1 => do
    let b ← getByte
    let bs ← getBytes n
    pure (b :: bs)

/-- A 32-bit operand. -/
def getWord : Parse Word := do
  let n ← getNat 4
  pure (BitVec.ofNat 32 n)

/-- A 16-bit operand. -/
def getHalf : Parse Half := do
  let n ← getNat 2
  pure (BitVec.ofNat 16 n)

/-- A flag operand: 0 or 1. -/
def getFlag : Parse Bool := do
  let b ← getByte
  if b = 0 then pure false else if b = 1 then pure true else throw .badFlag

/-- The instance operand: 0 is CAN1, 1 is CAN2. -/
def getInst : Parse Inst := do
  let b ← getByte
  if b = 0 then pure .can1 else if b = 1 then pure .can2 else throw .badInstanceByte

/-- The access width: 0 is 32 bits, 1 is 16 bits, 2 is 8 bits (log 7). -/
def getWidth : Parse Width := do
  let b ← getByte
  if b = 0 then pure .w32 else if b = 1 then pure .w16 else if b = 2 then pure .w8 else throw .badWidthCode

/-- A timing operand: four 16-bit fields. -/
def getTiming : Parse Timing := do
  let ts1 ← getNat 2
  let ts2 ← getNat 2
  let brp ← getNat 2
  let sjw ← getNat 2
  pure { ts1, ts2, brp, sjw }

/-- An access (R150): the 11-bit access word in two bytes, the instance, the width, and for a write the 32-bit
data value. -/
def getAccess : Parse Access := do
  let aw ← getNat 2
  if 2048 ≤ aw then throw .badAccessWord else
  let i ← getInst
  let w ← getWidth
  if 1024 ≤ aw then
    let v ← getWord
    pure { inst := i, word := BitVec.ofNat 11 aw, width := w, data := some v }
  else
    pure { inst := i, word := BitVec.ofNat 11 aw, width := w, data := none }

/-- R151: the register an access selects, and the instruction it is. A misaligned offset or another width is
R124's `BadAccessWidth`, and comes before `ReservedOffset` (R458). -/
def Access.decode (a : Access) : Except DecodeError Instr :=
  if a.width = .w32 ∧ a.word.extractLsb' 0 2 = 0 then
    match Reg.ofOffset? (a.word.extractLsb' 0 10).toNat with
    | none => .error (.reservedOffset a)
    | some r =>
      match a.word.getLsbD 10, a.data with
      | false, _ => .ok (Instr.rd r a.inst)
      | true, some v => .ok (Instr.wr r a.inst v)
      | true, none => .error .truncated
  else .error (.badAccessWidth a)

/-- R154: the operation a selector names, with its operands. -/
def getOperation : Parse Instr := do
  let sel ← getByte
  match sel.toNat with

  | 0x00 => do
    let i ← getInst
    pure (.opReset i)
  | 0x01 => do
    let i ← getInst
    pure (.opEnterInit i)
  | 0x02 => do
    let i ← getInst
    pure (.opLeaveInit i)
  | 0x03 => do
    let i ← getInst
    pure (.opEnterSleep i)
  | 0x04 => do
    let i ← getInst
    pure (.opLeaveSleep i)
  | 0x05 => do
    let i ← getInst
    pure (.opIsInit i)
  | 0x06 => do
    let i ← getInst
    pure (.opIsSleep i)
  | 0x07 => do
    let i ← getInst
    pure (.opEnterInitBlocking i)
  | 0x08 => do
    let i ← getInst
    pure (.opLeaveInitBlocking i)
  | 0x20 => do
    let rate ← getNat 4
    let sp ← getNat 1
    let pclk ← getNat 4
    pure (.opComputeTiming rate sp pclk)
  | 0x21 => do
    let i ← getInst
    let t ← getTiming
    pure (.opApplyTiming i t)
  | 0x22 => do
    let t ← getTiming
    let pclk ← getNat 4
    pure (.opGetEffectiveBitrate t pclk)
  | 0x40 => do
    let i ← getInst
    let bank ← getNat 1
    let scale32 ← getFlag
    let listMode ← getFlag
    let reg1 ← getWord
    let reg2 ← getWord
    let fifoId ← getNat 1
    let enable ← getFlag
    pure (.opConfigureFilter i bank scale32 listMode reg1 reg2 fifoId enable)
  | 0x41 => do
    let i ← getInst
    let bank ← getNat 1
    let id1 ← getHalf
    let mask1 ← getHalf
    let id2 ← getHalf
    let mask2 ← getHalf
    let fifoId ← getNat 1
    let enable ← getFlag
    pure (.opFilterIdMask16 i bank id1 mask1 id2 mask2 fifoId enable)
  | 0x42 => do
    let i ← getInst
    let bank ← getNat 1
    let id ← getWord
    let mask ← getWord
    let fifoId ← getNat 1
    let enable ← getFlag
    pure (.opFilterIdMask32 i bank id mask fifoId enable)
  | 0x43 => do
    let i ← getInst
    let bank ← getNat 1
    let id1 ← getHalf
    let id2 ← getHalf
    let id3 ← getHalf
    let id4 ← getHalf
    let fifoId ← getNat 1
    let enable ← getFlag
    pure (.opFilterIdList16 i bank id1 id2 id3 id4 fifoId enable)
  | 0x44 => do
    let i ← getInst
    let bank ← getNat 1
    let id1 ← getWord
    let id2 ← getWord
    let fifoId ← getNat 1
    let enable ← getFlag
    pure (.opFilterIdList32 i bank id1 id2 fifoId enable)
  | 0x60 => do
    let i ← getInst
    pure (.opGetEmptyMailbox i)
  | 0x61 => do
    let i ← getInst
    let id ← getWord
    let ext ← getFlag
    let rtr ← getFlag
    let length ← getNat 1
    let count ← getNat 1
    let data ← getBytes count
    if count < min length 8 then throw .shortPayload else
    pure (.opTransmit i id ext rtr length data)
  | 0x62 => do
    let i ← getInst
    pure (.opAvailableMailbox i)
  | 0x80 => do
    let i ← getInst
    let fifoId ← getNat 1
    let autoRelease ← getFlag
    pure (.opReceive i fifoId autoRelease)
  | 0x81 => do
    let i ← getInst
    let fifoId ← getNat 1
    pure (.opReleaseFifo i fifoId)
  | _ => throw (.unknownSelector sel)

/-- The decoder: an instruction, or why the bytes are none. Bytes after the instruction are not read. -/
def decode (c : HostCode) : Except DecodeError Instr :=
  match c.fmt with
  | .access =>
    match getAccess c.bytes with
    | .ok (a, _) => a.decode
    | .error e => .error e
  | .operation =>
    match getOperation c.bytes with
    | .ok (i, _) => .ok i
    | .error e => .error e

/-! ## Writing bytes -/

/-- `n` bytes of a number, little-endian. -/
def leBytes : Nat → Nat → List Byte
  | 0, _ => []
  | n + 1, m => BitVec.ofNat 8 m :: leBytes n (m / 256)

/-- The instance operand. -/
def Inst.bytes : Inst → List Byte
  | .can1 => [0]
  | .can2 => [1]

/-- The access width. -/
def Width.bytes : Width → List Byte
  | .w32 => [0]
  | .w16 => [1]
  | .w8 => [2]

/-- A flag operand. -/
def flagBytes (b : Bool) : List Byte := if b then [1] else [0]

/-- A timing operand. -/
def Timing.bytes (t : Timing) : List Byte :=
  leBytes 2 t.ts1 ++ leBytes 2 t.ts2 ++ leBytes 2 t.brp ++ leBytes 2 t.sjw

/-- The bytes of an access (R150). -/
def Access.bytes (a : Access) : List Byte :=
  leBytes 2 a.word.toNat ++ a.inst.bytes ++ a.width.bytes
    ++ (match a.data with | some v => leBytes 4 v.toNat | none => [])

/-- The encoded read of a register. -/
def encodeRead (r : Reg) (i : Inst) : HostCode :=
  { fmt := .access, bytes := (Access.read i r).bytes }

/-- The encoded write of a register. -/
def encodeWrite (r : Reg) (i : Inst) (v : Word) : HostCode :=
  { fmt := .access, bytes := (Access.write i r v).bytes }

/-- An encoded driver operation: the selector (R154), then the operand bytes. -/
def encodeOp (selector : Byte) (operands : List Byte) : HostCode :=
  { fmt := .operation, bytes := selector :: operands }

/-- The encoder. -/
def encode : Instr → HostCode
  | .rdMCR i => encodeRead .mcr i
  | .wrMCR i v => encodeWrite .mcr i v
  | .rdMSR i => encodeRead .msr i
  | .wrMSR i v => encodeWrite .msr i v
  | .rdTSR i => encodeRead .tsr i
  | .wrTSR i v => encodeWrite .tsr i v
  | .rdRF0R i => encodeRead (.rfr .f0) i
  | .wrRF0R i v => encodeWrite (.rfr .f0) i v
  | .rdRF1R i => encodeRead (.rfr .f1) i
  | .wrRF1R i v => encodeWrite (.rfr .f1) i v
  | .rdIER i => encodeRead .ier i
  | .wrIER i v => encodeWrite .ier i v
  | .rdESR i => encodeRead .esr i
  | .wrESR i v => encodeWrite .esr i v
  | .rdBTR i => encodeRead .btr i
  | .wrBTR i v => encodeWrite .btr i v
  | .rdTI0R i => encodeRead (.tir .m0) i
  | .wrTI0R i v => encodeWrite (.tir .m0) i v
  | .rdTDT0R i => encodeRead (.tdtr .m0) i
  | .wrTDT0R i v => encodeWrite (.tdtr .m0) i v
  | .rdTDL0R i => encodeRead (.tdlr .m0) i
  | .wrTDL0R i v => encodeWrite (.tdlr .m0) i v
  | .rdTDH0R i => encodeRead (.tdhr .m0) i
  | .wrTDH0R i v => encodeWrite (.tdhr .m0) i v
  | .rdTI1R i => encodeRead (.tir .m1) i
  | .wrTI1R i v => encodeWrite (.tir .m1) i v
  | .rdTDT1R i => encodeRead (.tdtr .m1) i
  | .wrTDT1R i v => encodeWrite (.tdtr .m1) i v
  | .rdTDL1R i => encodeRead (.tdlr .m1) i
  | .wrTDL1R i v => encodeWrite (.tdlr .m1) i v
  | .rdTDH1R i => encodeRead (.tdhr .m1) i
  | .wrTDH1R i v => encodeWrite (.tdhr .m1) i v
  | .rdTI2R i => encodeRead (.tir .m2) i
  | .wrTI2R i v => encodeWrite (.tir .m2) i v
  | .rdTDT2R i => encodeRead (.tdtr .m2) i
  | .wrTDT2R i v => encodeWrite (.tdtr .m2) i v
  | .rdTDL2R i => encodeRead (.tdlr .m2) i
  | .wrTDL2R i v => encodeWrite (.tdlr .m2) i v
  | .rdTDH2R i => encodeRead (.tdhr .m2) i
  | .wrTDH2R i v => encodeWrite (.tdhr .m2) i v
  | .rdRI0R i => encodeRead (.rir .f0) i
  | .wrRI0R i v => encodeWrite (.rir .f0) i v
  | .rdRDT0R i => encodeRead (.rdtr .f0) i
  | .wrRDT0R i v => encodeWrite (.rdtr .f0) i v
  | .rdRDL0R i => encodeRead (.rdlr .f0) i
  | .wrRDL0R i v => encodeWrite (.rdlr .f0) i v
  | .rdRDH0R i => encodeRead (.rdhr .f0) i
  | .wrRDH0R i v => encodeWrite (.rdhr .f0) i v
  | .rdRI1R i => encodeRead (.rir .f1) i
  | .wrRI1R i v => encodeWrite (.rir .f1) i v
  | .rdRDT1R i => encodeRead (.rdtr .f1) i
  | .wrRDT1R i v => encodeWrite (.rdtr .f1) i v
  | .rdRDL1R i => encodeRead (.rdlr .f1) i
  | .wrRDL1R i v => encodeWrite (.rdlr .f1) i v
  | .rdRDH1R i => encodeRead (.rdhr .f1) i
  | .wrRDH1R i v => encodeWrite (.rdhr .f1) i v
  | .rdFMR i => encodeRead .fmr i
  | .wrFMR i v => encodeWrite .fmr i v
  | .rdFM1R i => encodeRead .fm1r i
  | .wrFM1R i v => encodeWrite .fm1r i v
  | .rdFS1R i => encodeRead .fs1r i
  | .wrFS1R i v => encodeWrite .fs1r i v
  | .rdFFA1R i => encodeRead .ffa1r i
  | .wrFFA1R i v => encodeWrite .ffa1r i v
  | .rdFA1R i => encodeRead .fa1r i
  | .wrFA1R i v => encodeWrite .fa1r i v
  | .rdF0R1 i => encodeRead (.fr 0 .r1) i
  | .wrF0R1 i v => encodeWrite (.fr 0 .r1) i v
  | .rdF0R2 i => encodeRead (.fr 0 .r2) i
  | .wrF0R2 i v => encodeWrite (.fr 0 .r2) i v
  | .rdF1R1 i => encodeRead (.fr 1 .r1) i
  | .wrF1R1 i v => encodeWrite (.fr 1 .r1) i v
  | .rdF1R2 i => encodeRead (.fr 1 .r2) i
  | .wrF1R2 i v => encodeWrite (.fr 1 .r2) i v
  | .rdF2R1 i => encodeRead (.fr 2 .r1) i
  | .wrF2R1 i v => encodeWrite (.fr 2 .r1) i v
  | .rdF2R2 i => encodeRead (.fr 2 .r2) i
  | .wrF2R2 i v => encodeWrite (.fr 2 .r2) i v
  | .rdF3R1 i => encodeRead (.fr 3 .r1) i
  | .wrF3R1 i v => encodeWrite (.fr 3 .r1) i v
  | .rdF3R2 i => encodeRead (.fr 3 .r2) i
  | .wrF3R2 i v => encodeWrite (.fr 3 .r2) i v
  | .rdF4R1 i => encodeRead (.fr 4 .r1) i
  | .wrF4R1 i v => encodeWrite (.fr 4 .r1) i v
  | .rdF4R2 i => encodeRead (.fr 4 .r2) i
  | .wrF4R2 i v => encodeWrite (.fr 4 .r2) i v
  | .rdF5R1 i => encodeRead (.fr 5 .r1) i
  | .wrF5R1 i v => encodeWrite (.fr 5 .r1) i v
  | .rdF5R2 i => encodeRead (.fr 5 .r2) i
  | .wrF5R2 i v => encodeWrite (.fr 5 .r2) i v
  | .rdF6R1 i => encodeRead (.fr 6 .r1) i
  | .wrF6R1 i v => encodeWrite (.fr 6 .r1) i v
  | .rdF6R2 i => encodeRead (.fr 6 .r2) i
  | .wrF6R2 i v => encodeWrite (.fr 6 .r2) i v
  | .rdF7R1 i => encodeRead (.fr 7 .r1) i
  | .wrF7R1 i v => encodeWrite (.fr 7 .r1) i v
  | .rdF7R2 i => encodeRead (.fr 7 .r2) i
  | .wrF7R2 i v => encodeWrite (.fr 7 .r2) i v
  | .rdF8R1 i => encodeRead (.fr 8 .r1) i
  | .wrF8R1 i v => encodeWrite (.fr 8 .r1) i v
  | .rdF8R2 i => encodeRead (.fr 8 .r2) i
  | .wrF8R2 i v => encodeWrite (.fr 8 .r2) i v
  | .rdF9R1 i => encodeRead (.fr 9 .r1) i
  | .wrF9R1 i v => encodeWrite (.fr 9 .r1) i v
  | .rdF9R2 i => encodeRead (.fr 9 .r2) i
  | .wrF9R2 i v => encodeWrite (.fr 9 .r2) i v
  | .rdF10R1 i => encodeRead (.fr 10 .r1) i
  | .wrF10R1 i v => encodeWrite (.fr 10 .r1) i v
  | .rdF10R2 i => encodeRead (.fr 10 .r2) i
  | .wrF10R2 i v => encodeWrite (.fr 10 .r2) i v
  | .rdF11R1 i => encodeRead (.fr 11 .r1) i
  | .wrF11R1 i v => encodeWrite (.fr 11 .r1) i v
  | .rdF11R2 i => encodeRead (.fr 11 .r2) i
  | .wrF11R2 i v => encodeWrite (.fr 11 .r2) i v
  | .rdF12R1 i => encodeRead (.fr 12 .r1) i
  | .wrF12R1 i v => encodeWrite (.fr 12 .r1) i v
  | .rdF12R2 i => encodeRead (.fr 12 .r2) i
  | .wrF12R2 i v => encodeWrite (.fr 12 .r2) i v
  | .rdF13R1 i => encodeRead (.fr 13 .r1) i
  | .wrF13R1 i v => encodeWrite (.fr 13 .r1) i v
  | .rdF13R2 i => encodeRead (.fr 13 .r2) i
  | .wrF13R2 i v => encodeWrite (.fr 13 .r2) i v
  | .rdF14R1 i => encodeRead (.fr 14 .r1) i
  | .wrF14R1 i v => encodeWrite (.fr 14 .r1) i v
  | .rdF14R2 i => encodeRead (.fr 14 .r2) i
  | .wrF14R2 i v => encodeWrite (.fr 14 .r2) i v
  | .rdF15R1 i => encodeRead (.fr 15 .r1) i
  | .wrF15R1 i v => encodeWrite (.fr 15 .r1) i v
  | .rdF15R2 i => encodeRead (.fr 15 .r2) i
  | .wrF15R2 i v => encodeWrite (.fr 15 .r2) i v
  | .rdF16R1 i => encodeRead (.fr 16 .r1) i
  | .wrF16R1 i v => encodeWrite (.fr 16 .r1) i v
  | .rdF16R2 i => encodeRead (.fr 16 .r2) i
  | .wrF16R2 i v => encodeWrite (.fr 16 .r2) i v
  | .rdF17R1 i => encodeRead (.fr 17 .r1) i
  | .wrF17R1 i v => encodeWrite (.fr 17 .r1) i v
  | .rdF17R2 i => encodeRead (.fr 17 .r2) i
  | .wrF17R2 i v => encodeWrite (.fr 17 .r2) i v
  | .rdF18R1 i => encodeRead (.fr 18 .r1) i
  | .wrF18R1 i v => encodeWrite (.fr 18 .r1) i v
  | .rdF18R2 i => encodeRead (.fr 18 .r2) i
  | .wrF18R2 i v => encodeWrite (.fr 18 .r2) i v
  | .rdF19R1 i => encodeRead (.fr 19 .r1) i
  | .wrF19R1 i v => encodeWrite (.fr 19 .r1) i v
  | .rdF19R2 i => encodeRead (.fr 19 .r2) i
  | .wrF19R2 i v => encodeWrite (.fr 19 .r2) i v
  | .rdF20R1 i => encodeRead (.fr 20 .r1) i
  | .wrF20R1 i v => encodeWrite (.fr 20 .r1) i v
  | .rdF20R2 i => encodeRead (.fr 20 .r2) i
  | .wrF20R2 i v => encodeWrite (.fr 20 .r2) i v
  | .rdF21R1 i => encodeRead (.fr 21 .r1) i
  | .wrF21R1 i v => encodeWrite (.fr 21 .r1) i v
  | .rdF21R2 i => encodeRead (.fr 21 .r2) i
  | .wrF21R2 i v => encodeWrite (.fr 21 .r2) i v
  | .rdF22R1 i => encodeRead (.fr 22 .r1) i
  | .wrF22R1 i v => encodeWrite (.fr 22 .r1) i v
  | .rdF22R2 i => encodeRead (.fr 22 .r2) i
  | .wrF22R2 i v => encodeWrite (.fr 22 .r2) i v
  | .rdF23R1 i => encodeRead (.fr 23 .r1) i
  | .wrF23R1 i v => encodeWrite (.fr 23 .r1) i v
  | .rdF23R2 i => encodeRead (.fr 23 .r2) i
  | .wrF23R2 i v => encodeWrite (.fr 23 .r2) i v
  | .rdF24R1 i => encodeRead (.fr 24 .r1) i
  | .wrF24R1 i v => encodeWrite (.fr 24 .r1) i v
  | .rdF24R2 i => encodeRead (.fr 24 .r2) i
  | .wrF24R2 i v => encodeWrite (.fr 24 .r2) i v
  | .rdF25R1 i => encodeRead (.fr 25 .r1) i
  | .wrF25R1 i v => encodeWrite (.fr 25 .r1) i v
  | .rdF25R2 i => encodeRead (.fr 25 .r2) i
  | .wrF25R2 i v => encodeWrite (.fr 25 .r2) i v
  | .rdF26R1 i => encodeRead (.fr 26 .r1) i
  | .wrF26R1 i v => encodeWrite (.fr 26 .r1) i v
  | .rdF26R2 i => encodeRead (.fr 26 .r2) i
  | .wrF26R2 i v => encodeWrite (.fr 26 .r2) i v
  | .rdF27R1 i => encodeRead (.fr 27 .r1) i
  | .wrF27R1 i v => encodeWrite (.fr 27 .r1) i v
  | .rdF27R2 i => encodeRead (.fr 27 .r2) i
  | .wrF27R2 i v => encodeWrite (.fr 27 .r2) i v
  | .opReset i =>
    encodeOp 0x00 (i.bytes)
  | .opEnterInit i =>
    encodeOp 0x01 (i.bytes)
  | .opLeaveInit i =>
    encodeOp 0x02 (i.bytes)
  | .opEnterSleep i =>
    encodeOp 0x03 (i.bytes)
  | .opLeaveSleep i =>
    encodeOp 0x04 (i.bytes)
  | .opIsInit i =>
    encodeOp 0x05 (i.bytes)
  | .opIsSleep i =>
    encodeOp 0x06 (i.bytes)
  | .opEnterInitBlocking i =>
    encodeOp 0x07 (i.bytes)
  | .opLeaveInitBlocking i =>
    encodeOp 0x08 (i.bytes)
  | .opComputeTiming rate sp pclk =>
    encodeOp 0x20 (leBytes 4 rate ++ leBytes 1 sp ++ leBytes 4 pclk)
  | .opApplyTiming i t =>
    encodeOp 0x21 (i.bytes ++ t.bytes)
  | .opGetEffectiveBitrate t pclk =>
    encodeOp 0x22 (t.bytes ++ leBytes 4 pclk)
  | .opConfigureFilter i bank scale32 listMode reg1 reg2 fifoId enable =>
    encodeOp 0x40 (i.bytes ++ leBytes 1 bank ++ flagBytes scale32 ++ flagBytes listMode ++ leBytes 4 reg1.toNat ++ leBytes 4 reg2.toNat ++ leBytes 1 fifoId ++ flagBytes enable)
  | .opFilterIdMask16 i bank id1 mask1 id2 mask2 fifoId enable =>
    encodeOp 0x41 (i.bytes ++ leBytes 1 bank ++ leBytes 2 id1.toNat ++ leBytes 2 mask1.toNat ++ leBytes 2 id2.toNat ++ leBytes 2 mask2.toNat ++ leBytes 1 fifoId ++ flagBytes enable)
  | .opFilterIdMask32 i bank id mask fifoId enable =>
    encodeOp 0x42 (i.bytes ++ leBytes 1 bank ++ leBytes 4 id.toNat ++ leBytes 4 mask.toNat ++ leBytes 1 fifoId ++ flagBytes enable)
  | .opFilterIdList16 i bank id1 id2 id3 id4 fifoId enable =>
    encodeOp 0x43 (i.bytes ++ leBytes 1 bank ++ leBytes 2 id1.toNat ++ leBytes 2 id2.toNat ++ leBytes 2 id3.toNat ++ leBytes 2 id4.toNat ++ leBytes 1 fifoId ++ flagBytes enable)
  | .opFilterIdList32 i bank id1 id2 fifoId enable =>
    encodeOp 0x44 (i.bytes ++ leBytes 1 bank ++ leBytes 4 id1.toNat ++ leBytes 4 id2.toNat ++ leBytes 1 fifoId ++ flagBytes enable)
  | .opGetEmptyMailbox i =>
    encodeOp 0x60 (i.bytes)
  | .opTransmit i id ext rtr length data =>
    encodeOp 0x61 (i.bytes ++ leBytes 4 id.toNat ++ flagBytes ext ++ flagBytes rtr ++ leBytes 1 length ++ leBytes 1 data.length ++ data)
  | .opAvailableMailbox i =>
    encodeOp 0x62 (i.bytes)
  | .opReceive i fifoId autoRelease =>
    encodeOp 0x80 (i.bytes ++ leBytes 1 fifoId ++ flagBytes autoRelease)
  | .opReleaseFifo i fifoId =>
    encodeOp 0x81 (i.bytes ++ leBytes 1 fifoId)

/-! ## The opcode table's words -/

/-- The format of a table row by its width in bits: a selector has 8 bits (R154), an access word 11 (R150), 16 in
whole bytes. -/
def tableFormat (nbits : Nat) : Format := if nbits ≤ 8 then .operation else .access

/-- The most bytes an instruction has: a `transmit` with 255 data bytes. -/
def maxBytes : Nat := 264

/-- A table word laid out as a host request: its bytes, the first at the front, and zeros after it. -/
def tableCode (nbits w : Nat) : HostCode :=
  let n := (nbits + 7) / 8
  { fmt := tableFormat nbits, bytes := leBytes n w ++ List.replicate (maxBytes - n) 0 }

/-- The instruction the decoder reads from a table word. -/
def decodeTableWord (nbits w : Nat) : Option Instr :=
  match decode (tableCode nbits w) with
  | .ok i => some i
  | .error _ => none

end Sys2Proof
end

