-- ==== Sys2Proof/Machine/Registers.lean ====
section
/-! DEFINITION. The pieces of state of 10_state.md R32, R54 to R56, as the spec names them, and the agents' steps
with the values the environment supplies (R6, R8). -/

namespace Sys2Proof.Machine

/-- The acknowledged operating mode (R33). -/
inductive Mode where
  | sleep
  | init
  | normal
  deriving DecidableEq, Repr

/-- The stored fields of MCR (R35). -/
structure Mcr where
  inrq : Bool
  sleep : Bool
  txfp : Bool
  rflm : Bool
  nart : Bool
  awum : Bool
  abom : Bool
  ttcm : Bool
  dbf : Bool
  deriving DecidableEq, Repr

/-- The fields of IER (R39). -/
structure Ier where
  tmeie : Bool
  fmpie0 : Bool
  ffie0 : Bool
  fovie0 : Bool
  fmpie1 : Bool
  ffie1 : Bool
  fovie1 : Bool
  ewgie : Bool
  epvie : Bool
  bofie : Bool
  lecie : Bool
  errie : Bool
  wkuie : Bool
  slkie : Bool
  deriving DecidableEq, Repr

/-- The fields of ESR (R40). -/
structure Esr where
  ewgf : Bool
  epvf : Bool
  boff : Bool
  lec : BitVec 3
  /-- TEC, the transmit error counter -/
  tec : Byte
  /-- REC, the receive error counter -/
  rxec : Byte
  deriving DecidableEq, Repr

/-- The fields of BTR, in their encoded (minus-one) form (R41, R158). -/
structure Btr where
  brp : BitVec 10
  ts1 : BitVec 4
  ts2 : BitVec 3
  sjw : BitVec 2
  lbkm : Bool
  silm : Bool
  deriving DecidableEq, Repr

/-- A transmit mailbox (R54). -/
structure Mailbox where
  /-- a request is issued; TMEx is its negation -/
  pending : Bool
  abrq : Bool
  rqcp : Bool
  txok : Bool
  alst : Bool
  terr : Bool
  /-- TIxR[31:1] -/
  tir : BitVec 31
  dlc : BitVec 4
  tgt : Bool
  time : Half
  dlo : Word
  dhi : Word
  deriving DecidableEq, Repr

/-- An entry of a receive FIFO (R55). -/
structure Entry where
  /-- RIxR[31:1] -/
  rir : BitVec 31
  dlc : BitVec 4
  fmi : Byte
  time : Half
  dlo : Word
  dhi : Word
  deriving DecidableEq, Repr

/-- A receive FIFO (R55): the entries oldest first, and the two latched flags. -/
structure Fifo where
  q : List Entry
  full : Bool
  fovr : Bool
  deriving DecidableEq, Repr

/-- The state of one instance (R32). -/
structure Controller where
  mcr : Mcr
  mode : Mode
  erri : Bool
  wkui : Bool
  slaki : Bool
  mb0 : Mailbox
  mb1 : Mailbox
  mb2 : Mailbox
  fifo0 : Fifo
  fifo1 : Fifo
  ier : Ier
  esr : Esr
  btr : Btr
  boffInitSeen : Bool
  resetAsserted : Bool
  deriving DecidableEq, Repr

/-- The two content words of a filter bank (R53). -/
structure BankWords where
  r1 : Word
  r2 : Word
  deriving DecidableEq, Repr

/-- The filter block (R32). The four vectors have one bit a bank; the bits at and above `NBANKS` are kept 0
(`FilterBlock.wf`), since those banks do not exist (R304). -/
structure FilterBlock where
  finit : Bool
  can2sb : BitVec 6
  fbm : BitVec 28
  fsc : BitVec 28
  ffa : BitVec 28
  fact : BitVec 28
  fr : Vector BankWords 28
  deriving DecidableEq, Repr

/-- An identifier (R56): 11 bits when `ide = false`, 29 bits when `ide = true`, so that R56's bound on `id` holds of
every value of the type (log 15). -/
inductive CanId where
  | standard (id : BitVec 11)
  | extended (id : BitVec 29)
  deriving DecidableEq, Repr

/-- A frame as exchanged with the bus (R56). -/
structure Frame where
  id : CanId
  rtr : Bool
  dlc : BitVec 4
  data : Vector Byte 8
  deriving DecidableEq, Repr

/-- The error codes 1 to 6 of ESR.LEC that hardware sets (R40, R454). -/
inductive ErrorCode where
  | stuff
  | form
  | acknowledgment
  | bitRecessive
  | bitDominant
  | crc
  deriving DecidableEq, Repr

/-- The draws of an error event (R454): the counters it leaves and whether it enters bus-off. -/
structure ErrorDraws where
  tec : Byte
  rxec : Byte
  boff : Bool
  deriving DecidableEq, Repr

/-- The draws of an accepted frame: its time stamp (R461), the residue in the bytes past its payload (R408) and
which of several winners takes it (R311). -/
structure RxDraws where
  stamp : Half
  residue : Vector Byte 8
  pick : Nat
  deriving DecidableEq, Repr

/-- The outcome of a transmission attempt, chosen by the environment (R356). -/
inductive TxOutcome where
  /-- success; whether ALST and TERR keep their values (92 D57), and the draws of a loopback reception -/
  | success (keepAlst keepTerr : Bool) (rx : RxDraws)
  | arbitrationLost
  /-- an error with its code and the draws of its error event -/
  | error (code : ErrorCode) (draws : ErrorDraws)
  deriving DecidableEq, Repr

/-- A step of an agent other than the host (R6), with every value the environment draws in it. -/
inductive AgentStep where
  /-- `ModeFsm[i]` (R204) -/
  | modeFsm (i : Inst)
  /-- `TxEngine[i]` attempt on mailbox x (R356): the time stamp and the two bytes of R361 are draws -/
  | txAttempt (i : Inst) (x : MbIx) (stamp : Half) (byte6 byte7 : Byte) (outcome : TxOutcome)
  /-- `TxEngine[i]` abort of mailbox x (R357) -/
  | txAbort (i : Inst) (x : MbIx)
  /-- `RxEngine[i]`: the Bus supplies a frame (R404) -/
  | rxFrame (i : Inst) (f : Frame) (draws : RxDraws)
  /-- `Bus` error-status step (R454); `none` is l = 0, a counter change only -/
  | errorEvent (i : Inst) (code : Option ErrorCode) (draws : ErrorDraws)
  /-- `Bus` wake-up step (R464) -/
  | wakeUp (i : Inst)
  /-- `Bus` bus-off recovery step (R465) -/
  | busOffRecovery (i : Inst)
  deriving DecidableEq, Repr

end Sys2Proof.Machine
end

