-- ==== Sys2Proof/Machine/ResetValues.lean ====
section
/-! DEFINITION. The reset values of 70_reset_and_hazards.md R501. Where R501 says "a reset-time draw" the value is a
free value, `Config.draw n` (log 3): a mailbox takes four draws, an instance twelve, the filter block fifty-six. -/

namespace Sys2Proof.Machine

/-- MCR = 0x0001_0002 (R501). -/
def Mcr.atReset : Mcr where
  inrq := false
  sleep := true
  txfp := false
  rflm := false
  nart := false
  awum := false
  abom := false
  ttcm := false
  dbf := true

/-- IER = 0 (R501). -/
def Ier.atReset : Ier where
  tmeie := false
  fmpie0 := false
  ffie0 := false
  fovie0 := false
  fmpie1 := false
  ffie1 := false
  fovie1 := false
  ewgie := false
  epvie := false
  bofie := false
  lecie := false
  errie := false
  wkuie := false
  slkie := false

/-- ESR = 0 (R501). -/
def Esr.atReset : Esr where
  ewgf := false
  epvf := false
  boff := false
  lec := 0
  tec := 0
  rxec := 0

/-- BTR = 0x0123_0000 (R501). -/
def Btr.atReset : Btr where
  brp := 0
  ts1 := 3
  ts2 := 2
  sjw := 1
  lbkm := false
  silm := false

/-- An empty mailbox whose contents are the reset-time draws n to n+3 (R501, 92 D5). -/
def Mailbox.atReset (n : Nat) : Mailbox where
  pending := false
  abrq := false
  rqcp := false
  txok := false
  alst := false
  terr := false
  tir := (Config.draw n).extractLsb' 1 31
  dlc := (Config.draw (n + 1)).extractLsb' 0 4
  tgt := (Config.draw (n + 1)).getLsbD 8
  time := (Config.draw (n + 1)).extractLsb' 16 16
  dlo := Config.draw (n + 2)
  dhi := Config.draw (n + 3)

/-- An empty FIFO (R501). -/
def Fifo.atReset : Fifo where
  q := []
  full := false
  fovr := false

/-- How many draws the reset of an instance takes. -/
def controllerResetDraws : Nat := 12

/-- How many draws the reset of the filter block takes. -/
def filterResetDraws : Nat := 56

/-- An instance after reset (R501), its unspecified contents being the draws from n on. -/
def Controller.atReset (n : Nat) : Controller where
  mcr := .atReset
  mode := .sleep
  erri := false
  wkui := false
  slaki := false
  mb0 := .atReset n
  mb1 := .atReset (n + 4)
  mb2 := .atReset (n + 8)
  fifo0 := .atReset
  fifo1 := .atReset
  ier := .atReset
  esr := .atReset
  btr := .atReset
  boffInitSeen := false
  resetAsserted := false

/-- The filter block after reset (R501): the latch held, every bank inactive, the content words draws. -/
def FilterBlock.atReset (n : Nat) : FilterBlock where
  finit := true
  can2sb := 14
  fbm := 0
  fsc := 0
  ffa := 0
  fact := 0
  fr := Vector.ofFn fun b => { r1 := Config.draw (n + 2 * b.val), r2 := Config.draw (n + 2 * b.val + 1) }

end Sys2Proof.Machine
end

