-- ==== Sys2Proof/Machine/State.lean ====
section
/-! DEFINITION. The machine's state (10_state.md R32, R58, R61), the faults and refusals of 60_exceptions.md R451, and
the state after power-up (70_reset_and_hazards.md R500). -/

namespace Sys2Proof.Machine

/-- A frame as `receive` returns it (44_receive.md R406). -/
structure Received where
  id : CanId
  isRemoteRequest : Bool
  filterMatchIndex : Byte
  length : BitVec 4
  data : Vector Byte 8
  deriving DecidableEq, Repr

/-- What a host access or operation returns (R8, `return v`). -/
inductive Result where
  /-- a write, or an operation without a return value -/
  | none
  /-- a register read: the word as it crosses the bus -/
  | word (w : BusWord)
  | flag (b : Bool)
  | timing (t : Timing)
  | rate (n : Nat)
  | mailbox (x : Option MbIx)
  | int (n : Int)
  | frame (f : Received)
  deriving DecidableEq, Repr

/-- A request the host issues (R6): an encoded access or operation; a raw access to a physical address, of any
width (R8 `MemRead`/`MemWrite`, R121, R124); the two calls of the reset collaborator (R500). -/
inductive HostRequest where
  /-- an access, or an operation, whose host steps are taken one a turn (R6, R9) -/
  | code (c : HostCode)
  /-- the model's own: an access, or an operation taken as one step of the model (log 6) -/
  | atOnce (c : HostCode)
  | bus (addr : Nat) (width : Width) (write : Option Word)
  | resetAssert (i : Inst)
  | resetClear (i : Inst)
  deriving DecidableEq, Repr

/-- What a fault records (R451): "the access word and data value, or the operation selector and its arguments, of
the step that raised it". -/
inductive Cause where
  | access (a : Access)
  | operation (i : Instr)
  deriving DecidableEq, Repr

/-- The faults of R451 ("the run enters a fault state that is never final", R8). Each "errs toward unprovable": safe.
`noSuchInstance` is the model's own. -/
inductive Fault where
  /-- 1: an access not 32 bits wide or not at a multiple of 4; raised by `runAccess` (R124, R151); safe -/
  | badAccessWidth (c : Cause)
  /-- 2: an offset no register occupies, a missing bank, or the filter block outside FILTER_OWNER; raised by
  `runAccess` and `checkAccess` (R152); safe -/
  | reservedOffset (c : Cause)
  /-- 3: a host access while the instance's reset is asserted; raised by `checkAccess` (R500); safe -/
  | accessDuringReset (c : Cause)
  /-- 4: a BTR write while `mode` is not Init; raised by `writeBtr` (R252); safe -/
  | btrWriteOutsideInit (c : Cause)
  /-- 5: a filter-block write other than FINIT while the latch is released; raised by the filter writes
  (R300 to R303); safe -/
  | filterWriteOutsideInit (c : Cause)
  /-- 6: a write to a register of a pending mailbox; raised by the mailbox writes (R353 to R355); safe -/
  | mailboxWriteWhilePending (c : Cause)
  /-- 7: `applyTiming` with a field out of range; raised by `execOpApplyTiming` (R257); safe -/
  | invalidTiming (c : Cause)
  /-- 8: `configureFilter` or a helper with `bank >= NBANKS`; raised by `configureFilter` (R314); safe -/
  | bankOutOfRange (c : Cause)
  /-- 9: a FIFO number other than 0 or 1; raised by `configureFilter`, `execOpReceive`, `execOpReleaseFifo`
  (R314, R406, R407); safe -/
  | badFifoId (c : Cause)
  /-- 10: an FMR write setting CAN2SB above 28; raised by `writeFmr` (R300); safe -/
  | can2sbRange (c : Cause)
  /-- an access or reset call for CAN2 in a part with `NINST = 1`; raised by `checkAccess`; DESIGN CHOICE (log 10);
  safe -/
  | noSuchInstance (c : Cause)
  deriving DecidableEq, Repr

/-- Why a step has no meaning (R8, `refuse`). -/
inductive Refusal where
  /-- an instruction without a meaning; raised by `exec` only; safe -/
  | notModelled (mnemonic : String)
  /-- R1 of R451: an MCR write with bit 15 set; raised by `writeMcr` (R201); safe -/
  | masterResetUnmodelled (c : Cause)
  /-- R2 of R451: a selector not in R154; raised by `runRequest`; safe -/
  | unknownSelector (selector : Byte)
  /-- bytes that are no host request (log 7, log 11); raised by `runRequest`; safe -/
  | malformedRequest (e : DecodeError)
  /-- a physical address in no window: "What lies outside the window is the platform's" (R129, log 11); raised by
  `runRequest`; safe -/
  | outsideWindow (addr : Nat)
  deriving DecidableEq, Repr

/-- Why an access or operation stops without a result. -/
inductive Stop where
  | fault (f : Fault)
  | refused (r : Refusal)
  deriving DecidableEq, Repr

/-- An operation the host is in the middle of: which one, and the answers its host steps have had so far, oldest first
(a read its word, a draw its value, a write or a reset call a zero word). What it does next follows from these. -/
structure Call where
  op : Instr
  answers : List BusWord
  deriving DecidableEq, Repr

/-- The state: the two instances, the one filter block and the log of frames sent (R61); the parameters (R5), which
no step writes; and the model's own fields. -/
structure State where
  /-- the parameters of R5 (log 1) -/
  params : Params
  /-- instance 0 -/
  can1 : Controller
  /-- instance 1 -/
  can2 : Controller
  /-- the filter block, in the window of FILTER_OWNER (R313) -/
  filter : FilterBlock
  /-- `BusOut` (R58): the frames placed on the bus, in order -/
  busOut : List (Inst × Frame)
  /-- the model's own: what the host has yet to issue, in order (log 5) -/
  program : List HostRequest
  /-- the operation the host is in the middle of (R6, R9), if any (log 6) -/
  call : Option Call
  /-- the model's own: the agent steps the environment takes before each of the host's accesses to come, the first
  list before the next access (log 4); none once the list has ended -/
  gaps : List (List AgentStep)
  /-- the model's own: how many draws have been taken (log 2) -/
  draws : Nat
  /-- the model's own: what the host's last access or operation returned (log 13) -/
  result : Result
  deriving DecidableEq, Repr

/-- Power-up (R500): "the state after `ResetClear` for every instance, with `BusOut = []`". -/
def State.reset : State where
  params := Config.params
  can1 := .atReset 0
  can2 := .atReset controllerResetDraws
  filter := .atReset (2 * controllerResetDraws)
  busOut := []
  program := []
  call := none
  gaps := []
  draws := 2 * controllerResetDraws + filterResetDraws
  result := .none

end Sys2Proof.Machine
end

