-- ==== Sys2Proof/Machine/Operands.lean ====
section
/-! DEFINITION. Words and their fields: words with drawn bits (10_state.md R59), identifier, payload, length and
bit-timing words (30_encoding.md R156 to R160), and the accessors of the state's numbered parts. -/

namespace Sys2Proof

/-! ## Words with drawn bits -/

/-- The 32-bit word on the bus. -/
def BusWord.word (w : BusWord) : Word := (w.val &&& ~~~w.free) ||| (w.draw &&& w.free)

/-- A word without drawn bits. -/
def BusWord.ofWord (v : Word) : BusWord := { val := v, free := 0, draw := 0 }

/-- `v[k]` (R7). It does not look at the draw where the bit is a defined one. -/
def BusWord.bit (w : BusWord) (k : Nat) : Bool :=
  if w.free.getLsbD k then w.draw.getLsbD k else w.val.getLsbD k

/-- `v[lo+n-1:lo]` (R7). It does not look at the draw where every bit of the field is a defined one. -/
def BusWord.field (w : BusWord) (lo n : Nat) : BitVec n :=
  if w.free.extractLsb' lo n = 0 then w.val.extractLsb' lo n else w.word.extractLsb' lo n

/-- The whole word. It does not look at the draw where no bit is drawn. -/
def BusWord.whole (w : BusWord) : Word := if w.free = 0 then w.val else w.word

/-- `(v & ~clr) | set`, what an RMW writes back (R8). -/
def BusWord.update (w : BusWord) (clr set : Word) : BusWord where
  val := (w.val &&& ~~~clr) ||| set
  free := w.free &&& ~~~clr &&& ~~~set
  draw := w.draw

/-- A flag at bit k: `b << k`. -/
def flagAt (b : Bool) (k : Nat) : Word := if b then BitVec.ofNat 32 (2 ^ k) else 0

/-- A field at bit `lo`: `zext_32(v) << lo`. -/
def fieldAt {n : Nat} (v : BitVec n) (lo : Nat) : Word := v.setWidth 32 <<< lo

/-! ## Bit timing -/

/-- `BTRfields(t)` (R158). -/
def Timing.btrFields (t : Timing) : Word :=
  (BitVec.ofNat 32 (t.sjw - 1) <<< 24) ||| (BitVec.ofNat 32 (t.ts2 - 1) <<< 20)
    ||| (BitVec.ofNat 32 (t.ts1 - 1) <<< 16) ||| BitVec.ofNat 32 (t.brp - 1)

/-- The ranges of a valid timing's fields (R158, R250, R257). -/
def Timing.inRange (t : Timing) : Bool :=
  (1 ≤ t.ts1 && t.ts1 ≤ Config.ts1Max) && (1 ≤ t.ts2 && t.ts2 ≤ Config.ts2Max)
    && (1 ≤ t.brp && t.brp ≤ Config.brpMax) && (1 ≤ t.sjw && t.sjw ≤ Config.sjwMax)

/-- The failure sentinel (R255). -/
def Timing.sentinel : Timing := { ts1 := 0, ts2 := 0, brp := 0, sjw := 0 }

end Sys2Proof

namespace Sys2Proof.Machine

/-- The timing BTR holds, read back (R158). -/
def Btr.timing (b : Btr) : Timing where
  ts1 := b.ts1.toNat + 1
  ts2 := b.ts2.toNat + 1
  brp := b.brp.toNat + 1
  sjw := b.sjw.toNat + 1

/-! ## Identifiers and payloads -/

/-- `f.ide` (R56). -/
def CanId.ide : CanId → Bool
  | .standard _ => false
  | .extended _ => true

/-- `f.id` as a number (R56). -/
def CanId.toNat : CanId → Nat
  | .standard id => id.toNat
  | .extended id => id.toNat

/-- `plen(f)` (R56). -/
def Frame.plen (f : Frame) : Nat := if f.rtr then 0 else min f.dlc.toNat 8

/-- The 32-bit identifier word `W32(f)` (R156). -/
def Frame.w32 (f : Frame) : Word :=
  (match f.id with
    | .extended id => fieldAt id 3 ||| 4#32
    | .standard id => fieldAt id 21)
    ||| flagAt f.rtr 1

/-- The 16-bit identifier word `W16(f) = W32(f)[31:21] ++ W32(f)[1] ++ W32(f)[2] ++ W32(f)[20:18]` (R157). -/
def Frame.w16 (f : Frame) : Half :=
  (((f.w32.extractLsb' 21 11 ++ f.w32.extractLsb' 1 1) ++ f.w32.extractLsb' 2 1) ++ f.w32.extractLsb' 18 3)

/-- `id`, `ide` of an identifier word: the inverse in R156. -/
def idOf (ide : Bool) (w : Word) : CanId :=
  if ide then .extended (w.extractLsb' 3 29) else .standard (w.extractLsb' 21 11)

/-- `pack4` (R159): byte k at bits [8k+7:8k]. -/
def pack4 (b0 b1 b2 b3 : Byte) : Word := ((b3 ++ b2) ++ b1) ++ b0

/-- Byte k (0..3) of `unpack4(w)` (R159). -/
def unpackByte (w : Word) (k : Nat) : Byte := w.extractLsb' (8 * k) 8

/-- `unpack4(lo) ++ unpack4(hi)` (R159). -/
def unpack8 (lo hi : Word) : Vector Byte 8 :=
  #v[unpackByte lo 0, unpackByte lo 1, unpackByte lo 2, unpackByte lo 3,
     unpackByte hi 0, unpackByte hi 1, unpackByte hi 2, unpackByte hi 3]

/-- The low data word of a payload (R122, R159). -/
def packLow (d : Vector Byte 8) : Word := pack4 d[0] d[1] d[2] d[3]

/-- The high data word of a payload (R122, R159). -/
def packHigh (d : Vector Byte 8) : Word := pack4 d[4] d[5] d[6] d[7]

/-- The frame a mailbox holds, `frameOf(mb)` (R358). -/
def Mailbox.frame (m : Mailbox) : Frame :=
  let t : Word := fieldAt m.tir 1
  { id := idOf (t.getLsbD 2) t, rtr := t.getLsbD 1, dlc := m.dlc, data := unpack8 m.dlo m.dhi }

/-! ## Accessors -/

/-- Mailbox x. -/
def Controller.mb (c : Controller) : MbIx → Mailbox
  | .m0 => c.mb0
  | .m1 => c.mb1
  | .m2 => c.mb2

/-- Change mailbox x. -/
def Controller.setMb (c : Controller) (x : MbIx) (m : Mailbox) : Controller :=
  match x with
  | .m0 => { c with mb0 := m }
  | .m1 => { c with mb1 := m }
  | .m2 => { c with mb2 := m }

/-- FIFO x. -/
def Controller.fifo (c : Controller) : FifoIx → Fifo
  | .f0 => c.fifo0
  | .f1 => c.fifo1

/-- Change FIFO x. -/
def Controller.setFifo (c : Controller) (x : FifoIx) (f : Fifo) : Controller :=
  match x with
  | .f0 => { c with fifo0 := f }
  | .f1 => { c with fifo1 := f }

/-- Word k of a bank. -/
def BankWords.get (b : BankWords) : WordIx → Word
  | .r1 => b.r1
  | .r2 => b.r2

/-- Change word k of a bank. -/
def BankWords.set (b : BankWords) (k : WordIx) (v : Word) : BankWords :=
  match k with
  | .r1 => { b with r1 := v }
  | .r2 => { b with r2 := v }

/-- Instance i. -/
def State.can (s : State) : Inst → Controller
  | .can1 => s.can1
  | .can2 => s.can2

/-- Change instance i. -/
def State.setCan (s : State) (i : Inst) (c : Controller) : State :=
  match i with
  | .can1 => { s with can1 := c }
  | .can2 => { s with can2 := c }

/-- Change the filter block. -/
def State.setFilter (s : State) (fl : FilterBlock) : State := { s with filter := fl }

/-- `BusOut <- BusOut ++ l` (R356). -/
def State.send (s : State) (l : List (Inst × Frame)) : State := { s with busOut := s.busOut ++ l }

/-- `n` draws are taken (log 2). -/
def State.takeDraws (s : State) (n : Nat) : State := { s with draws := s.draws + n }

/-- What the host gets (R8, `return v`; log 13). -/
def State.returning (s : State) (r : Result) : State := { s with result := r }

/-- The host is in the middle of an operation, or in none (log 6). -/
def State.calling (s : State) (c : Option Call) : State := { s with call := c }

/-- Whether instance i is there (`NINST`, R5). -/
def hasInst (p : Params) : Inst → Bool
  | .can1 => true
  | .can2 => p.ninst = .two

/-- The instance whose window holds the filter block (R5, R313): `FILTER_OWNER` "when `NINST = 2`". -/
def filterOwner (p : Params) : Inst :=
  match p.ninst with
  | .one => .can1
  | .two => p.filterOwner

/-- The bits of the banks that exist: `2^NBANKS - 1` (R301, R304). -/
def bankMask (p : Params) : Word :=
  match p.nbanks with
  | .banks14 => 0x00003FFF
  | .banks28 => 0x0FFFFFFF

/-- `v[NBANKS-1:0]`, with the bits of banks that do not exist 0 (R301, R302, R304). -/
def bankBits (p : Params) (v : BusWord) : BitVec 28 :=
  match p.nbanks with
  | .banks14 => (v.field 0 14).setWidth 28
  | .banks28 => v.field 0 28

/-- Whether a register is decoded in the window of instance i (R151): the filter block only in the owner's, and only
the banks that exist. -/
def decodedIn (p : Params) (i : Inst) : Reg → Bool
  | .fmr | .fm1r | .fs1r | .ffa1r | .fa1r => filterOwner p == i
  | .fr b _ => filterOwner p == i && b.val < p.nbanks.toNat
  | .mcr | .msr | .tsr | .rfr _ | .ier | .esr | .btr | .tir _ | .tdtr _ | .tdlr _ | .tdhr _
  | .rir _ | .rdtr _ | .rdlr _ | .rdhr _ => true

/-- `CAN_BASE[i]` (R121). -/
def canBase (p : Params) : Inst → Nat
  | .can1 => p.canBase1
  | .can2 => p.canBase2

/-- The physical address of offset `off` of instance i (R121). -/
def regAddress (p : Params) (i : Inst) (off : Nat) : Nat := canBase p i + off

/-- The instance and offset a physical address reaches: the 1 KiB windows of the instances that are there (R120). -/
def locate (p : Params) (addr : Nat) : Option (Inst × Nat) :=
  if canBase p .can1 ≤ addr && addr < canBase p .can1 + Config.windowSize then
    some (.can1, addr - canBase p .can1)
  else if hasInst p .can2 && canBase p .can2 ≤ addr && addr < canBase p .can2 + Config.windowSize then
    some (.can2, addr - canBase p .can2)
  else none

end Sys2Proof.Machine
end

