-- ==== Sys2Proof/Machine/Flags.lean ====
section
/-! DEFINITION. The status flags that hardware computes: the error flags (60_exceptions.md R454, R455), the mode
acknowledges (10_state.md R33), the interrupt lines (60_exceptions.md R456) and the fault codes (R451). -/

namespace Sys2Proof.Machine

/-- `MSR.INAK` (R33). -/
def Controller.inak (c : Controller) : Bool := c.mode = .init

/-- `MSR.SLAK` (R33). -/
def Controller.slak (c : Controller) : Bool := c.mode = .sleep

/-- EWGF of counter values (R454). -/
def ewgfOf (tec rxec : Byte) : Bool :=
  Config.errWarnLimit ≤ tec.toNat || Config.errWarnLimit ≤ rxec.toNat

/-- EPVF of counter values (R454). -/
def epvfOf (tec rxec : Byte) : Bool :=
  Config.errPassiveLimit ≤ tec.toNat || Config.errPassiveLimit ≤ rxec.toNat

/-- ESR.LEC of an error code (R40). -/
def ErrorCode.lec : ErrorCode → BitVec 3
  | .stuff => 1
  | .form => 2
  | .acknowledgment => 3
  | .bitRecessive => 4
  | .bitDominant => 5
  | .crc => 6

/-- ESR after an error event (R454): the counters are the drawn ones, bus-off "may be entered, not left". -/
def Esr.afterEvent (e : Esr) (code : Option ErrorCode) (d : ErrorDraws) : Esr where
  lec := match code with
    | some l => l.lec
    | none => e.lec
  tec := d.tec
  rxec := d.rxec
  boff := e.boff || d.boff
  ewgf := ewgfOf d.tec d.rxec
  epvf := epvfOf d.tec d.rxec

/-- Whether `setErri(old, l)` sets ERRI (R455). -/
def erriRaised (ier : Ier) (old new : Esr) (code : Option ErrorCode) : Bool :=
  (new.ewgf && !old.ewgf && ier.ewgie) || (new.epvf && !old.epvf && ier.epvie)
    || (new.boff && !old.boff && ier.bofie) || (code.isSome && ier.lecie)

/-- `errorEvent(i, l)` (R454). -/
def Controller.errorEvent (c : Controller) (code : Option ErrorCode) (d : ErrorDraws) : Controller :=
  let esr := c.esr.afterEvent code d
  { c with esr := esr, erri := c.erri || erriRaised c.ier c.esr esr code }

/-! ## Interrupt lines (R456) -/

/-- The TX line. -/
def Controller.lineTx (c : Controller) : Bool := c.ier.tmeie && (c.mb0.rqcp || c.mb1.rqcp || c.mb2.rqcp)

/-- The RX0 line. -/
def Controller.lineRx0 (c : Controller) : Bool :=
  (c.ier.fmpie0 && !c.fifo0.q.isEmpty) || (c.ier.ffie0 && c.fifo0.full) || (c.ier.fovie0 && c.fifo0.fovr)

/-- The RX1 line. -/
def Controller.lineRx1 (c : Controller) : Bool :=
  (c.ier.fmpie1 && !c.fifo1.q.isEmpty) || (c.ier.ffie1 && c.fifo1.full) || (c.ier.fovie1 && c.fifo1.fovr)

/-- The SCE line. -/
def Controller.lineSce (c : Controller) : Bool :=
  (c.ier.errie && c.erri) || (c.ier.wkuie && c.wkui) || (c.ier.slkie && c.slaki)

/-! ## Fault codes (R451) -/

/-- The spec's code of a fault; `none` for the model's own. -/
def Fault.code : Fault → Option Nat
  | .badAccessWidth _ => some 1
  | .reservedOffset _ => some 2
  | .accessDuringReset _ => some 3
  | .btrWriteOutsideInit _ => some 4
  | .filterWriteOutsideInit _ => some 5
  | .mailboxWriteWhilePending _ => some 6
  | .invalidTiming _ => some 7
  | .bankOutOfRange _ => some 8
  | .badFifoId _ => some 9
  | .can2sbRange _ => some 10
  | .noSuchInstance _ => none

end Sys2Proof.Machine
end

