-- ==== Sys2Proof/Machine/Matching.lean ====
section
/-! DEFINITION. The acceptance filters: filter numbers, matching, priority and routing
(42_filter_bank.md R306 to R313). -/

namespace Sys2Proof.Machine

/-- `fsc[b]` (R50). -/
def FilterBlock.scale32 (fl : FilterBlock) (b : Nat) : Bool := fl.fsc.getLsbD b

/-- `fbm[b]` (R49). -/
def FilterBlock.listMode (fl : FilterBlock) (b : Nat) : Bool := fl.fbm.getLsbD b

/-- `ffa[b]` (R51). -/
def FilterBlock.fifoOf (fl : FilterBlock) (b : Nat) : FifoIx := if fl.ffa.getLsbD b then .f1 else .f0

/-- `count(b)`: how many filters a bank holds (R306). -/
def FilterBlock.count (fl : FilterBlock) (b : Nat) : Nat :=
  match fl.scale32 b, fl.listMode b with
  | true, false => 1
  | true, true => 2
  | false, false => 2
  | false, true => 4

/-- `lo(b)`: where the numbering that bank b belongs to starts (R306). -/
def numberingStart (p : Params) (fl : FilterBlock) (b : Nat) : Nat :=
  match p.ninst, p.nbanks with
  | .two, .banks28 => if fl.can2sb.toNat ≤ b && p.fmiRestart then fl.can2sb.toNat else 0
  | .two, .banks14 => 0
  | .one, .banks28 => 0
  | .one, .banks14 => 0

/-- `fmi(b, k)`: the filter match index of filter k of bank b (R306): each FIFO numbers its own filters, in
ascending bank order, inactive banks counted. -/
def fmi (p : Params) (fl : FilterBlock) (b k : Nat) : Nat :=
  k + (((List.range b).filter fun b' => numberingStart p fl b ≤ b' && fl.fifoOf b' = fl.fifoOf b).map
    fl.count).sum

/-- `M0`: the bits a 32-bit filter compares (R307). -/
def compareMask (p : Params) : Word := if p.bit0Compared then 0xFFFFFFFF else 0xFFFFFFFE

/-- A 32-bit mask filter (R307). -/
def match32Mask (p : Params) (w : BankWords) (f : Frame) : Bool :=
  (f.w32 ^^^ w.r1) &&& w.r2 &&& compareMask p == 0

/-- A 32-bit list filter (R308). -/
def match32List (p : Params) (word : Word) (f : Frame) : Bool :=
  f.w32 &&& compareMask p == word &&& compareMask p

/-- A 16-bit mask filter (R309): identifier in the low half, mask in the high half. -/
def match16Mask (word : Word) (f : Frame) : Bool :=
  (f.w16 ^^^ word.extractLsb' 0 16) &&& word.extractLsb' 16 16 == 0

/-- A 16-bit list filter (R310). -/
def match16List (half : Half) (f : Frame) : Bool := f.w16 == half

/-- Whether filter k of a bank with content `w` matches (R307 to R310, R162); a filter the bank does not hold
matches nothing. -/
def filterMatches (p : Params) (scale32 listMode : Bool) (w : BankWords) (k : Nat) (f : Frame) : Bool :=
  match scale32, listMode, k with
  | true, false, 0 => match32Mask p w f
  | true, true, 0 => match32List p w.r1 f
  | true, true, 1 => match32List p w.r2 f
  | false, false, 0 => match16Mask w.r1 f
  | false, false, 1 => match16Mask w.r2 f
  | false, true, 0 => match16List (w.r1.extractLsb' 0 16) f
  | false, true, 1 => match16List (w.r1.extractLsb' 16 16) f
  | false, true, 2 => match16List (w.r2.extractLsb' 0 16) f
  | false, true, 3 => match16List (w.r2.extractLsb' 16 16) f
  | _, _, _ => false

/-- `rank(b)` (R311). -/
def FilterBlock.rank (fl : FilterBlock) (b : Nat) : Nat :=
  match fl.scale32 b, fl.listMode b with
  | true, true => 0
  | true, false => 1
  | false, true => 2
  | false, false => 3

/-- `serves(b, i)`: the instance a bank belongs to (R313). -/
def serves (p : Params) (fl : FilterBlock) (b : Nat) (i : Inst) : Bool :=
  match p.ninst, p.nbanks with
  | .two, .banks28 => if b < fl.can2sb.toNat then i = .can1 else i = .can2
  | .two, .banks14 => i = .can1
  | .one, .banks28 => i = .can1
  | .one, .banks14 => i = .can1

/-- A filter that matches a frame: its key `(rank, fmi)` and the FIFO it routes to (R311). -/
structure Candidate where
  rank : Nat
  number : Nat
  fifo : FifoIx
  deriving DecidableEq, Repr

/-- The lexicographic order of the keys (R311). -/
def Candidate.keyLe (c d : Candidate) : Bool :=
  c.rank < d.rank || (c.rank = d.rank && c.number ≤ d.number)

/-- Whether a bank takes part in matching for instance i (R311, R304). -/
def bankTakesPart (p : Params) (fl : FilterBlock) (i : Inst) (b : Nat) : Bool :=
  b < p.nbanks.toNat && fl.fact.getLsbD b && serves p fl b i

/-- The candidates of one bank (R311). -/
def bankCandidates (p : Params) (fl : FilterBlock) (i : Inst) (f : Frame) (b : Fin 28) : List Candidate :=
  if bankTakesPart p fl i b.val then
    ((List.range (fl.count b.val)).filter fun k =>
      filterMatches p (fl.scale32 b.val) (fl.listMode b.val) fl.fr[b] k f).map fun k =>
        { rank := fl.rank b.val, number := fmi p fl b.val k, fifo := fl.fifoOf b.val }
  else []

/-- The candidates for a frame (R311). -/
def candidates (p : Params) (fl : FilterBlock) (i : Inst) (f : Frame) : List Candidate :=
  (List.finRange 28).flatMap (bankCandidates p fl i f)

/-- `accept(i, f)`: the FIFO and number of each candidate with the least key (R311). -/
def accept (p : Params) (fl : FilterBlock) (i : Inst) (f : Frame) : List (FifoIx × Nat) :=
  ((candidates p fl i f).filter fun c => (candidates p fl i f).all c.keyLe).map fun c => (c.fifo, c.number)

/-- One of a list, "any" (R311): the environment's number names it (log 19). -/
def pickFrom {α : Type} (l : List α) (n : Nat) : Option α := l[n % l.length]?

end Sys2Proof.Machine
end

