-- ==== Sys2Proof/Machine/Agents.lean ====
section
/-! DEFINITION. The steps of the hardware's own agents and of the bus (00_scope.md R6): mode acknowledgment
(40_mode_controller.md R204 to R207), transmission (43_transmit.md R356, R357), reception (44_receive.md R404, R405),
errors, wake-up and bus-off recovery (60_exceptions.md R454, R464, R465). Each has its enabling condition and its
effect; a scheduled step that is not enabled is not taken (R9, log 4). -/

namespace Sys2Proof.Machine

/-! ## The mode state machine -/

/-- The mode `ModeFsm` may go to: the set `targets` of R204 minus the current mode, which never has two members. -/
def modeTarget (c : Controller) : Option Mode :=
  match c.mcr.inrq, c.mcr.sleep, c.mode with
  | true, false, .init => none
  | true, false, .sleep => some .init
  | true, false, .normal => some .init
  | false, true, .sleep => none
  | false, true, .init => some .sleep
  | false, true, .normal => some .sleep
  | false, false, .normal => none
  | false, false, .sleep => some .normal
  | false, false, .init => some .normal
  | true, true, .init => none
  | true, true, .sleep => some .init
  | true, true, .normal => some .init

/-- `mode <- t` with the effects of R205 (entering Init), R206 (entering Sleep) and R207 (leaving Sleep). -/
def Controller.enterMode (c : Controller) (t : Mode) : Controller :=
  match t with
  | .init =>
    { c with mode := .init, boffInitSeen := c.boffInitSeen || c.esr.boff,
             slaki := if c.mode = .sleep then false else c.slaki }
  | .sleep => { c with mode := .sleep, slaki := c.slaki || c.ier.slkie }
  | .normal => { c with mode := .normal, slaki := if c.mode = .sleep then false else c.slaki }

/-! ## Reception -/

/-- Data byte k of an entry: the frame's, or residue past its payload (R404, R408). -/
def entryByte (f : Frame) (d : RxDraws) (k : Fin 8) : Byte :=
  if k.val < f.plen then f.data[k] else d.residue[k]

/-- `entryOf(f, n)` (R404). -/
def entryOf (f : Frame) (n : Nat) (d : RxDraws) : Entry where
  rir := f.w32.extractLsb' 1 31
  dlc := f.dlc
  fmi := BitVec.ofNat 8 n
  time := d.stamp
  dlo := pack4 (entryByte f d 0) (entryByte f d 1) (entryByte f d 2) (entryByte f d 3)
  dhi := pack4 (entryByte f d 4) (entryByte f d 5) (entryByte f d 6) (entryByte f d 7)

/-- `enqueue` on one FIFO (R405); `locked` is MCR.RFLM. -/
def Fifo.enqueue (f : Fifo) (locked : Bool) (e : Entry) : Fifo :=
  if f.q.length < Config.fifoDepth then
    { f with q := f.q ++ [e], full := f.full || f.q.length + 1 = Config.fifoDepth }
  else if locked then { f with fovr := true }
  else { f with q := f.q.take (Config.fifoDepth - 1) ++ [e], fovr := true }

/-- `esr.lec <- 0`: a frame received or sent without error (R404, R356). -/
def Controller.clearLec (c : Controller) : Controller := { c with esr := { c.esr with lec := 0 } }

/-- The FIFO and filter number that take a frame, if any (R305, R311): none while the latch is held. -/
def accepting (p : Params) (fl : FilterBlock) (i : Inst) (f : Frame) (pick : Nat) : Option (FifoIx × Nat) :=
  if fl.finit then none else pickFrom (accept p fl i f) pick

/-- `offer(i, f)` on the instance's own state (R404). -/
def Controller.offer (c : Controller) (p : Params) (fl : FilterBlock) (i : Inst) (f : Frame) (d : RxDraws) :
    Controller :=
  match accepting p fl i f d.pick with
  | none => c.clearLec
  | some (x, n) => c.clearLec.setFifo x ((c.fifo x).enqueue c.mcr.rflm (entryOf f n d))

/-! ## Transmission -/

/-- The frame an attempt sends (R356, R361): in time-triggered mode a mailbox with TGT and DLC 8 sends drawn bytes
in positions 6 and 7. -/
def sentFrame (c : Controller) (m : Mailbox) (byte6 byte7 : Byte) : Frame :=
  if c.mcr.ttcm && m.tgt && m.dlc = 8 then
    { m.frame with data := (m.frame.data.set 6 byte6).set 7 byte7 }
  else m.frame

/-- A mailbox becomes empty with its request completed (R356, R357). -/
def Mailbox.complete (m : Mailbox) : Mailbox := { m with pending := false, abrq := false, rqcp := true }

/-- A mailbox after a success (R356); ALST and TERR keep their values or are cleared (92 D57). -/
def Mailbox.succeeded (m : Mailbox) (keepAlst keepTerr : Bool) : Mailbox :=
  { m.complete with txok := true, alst := m.alst && keepAlst, terr := m.terr && keepTerr }

/-- A mailbox after a failed attempt (R356): it completes only without automatic retransmission. -/
def Mailbox.failed (m : Mailbox) (nart : Bool) : Mailbox := if nart then m.complete else m

/-- Whether an attempt on mailbox x is enabled (R356). -/
def txAttemptEnabled (c : Controller) (x : MbIx) (o : TxOutcome) : Bool :=
  !c.resetAsserted && c.mode = .normal && !c.esr.boff && (c.mb x).pending
    && !(c.btr.silm && !c.btr.lbkm)
    && (match o with
      | .arbitrationLost => !c.btr.lbkm
      | .success _ _ _ => true
      | .error _ _ => true)

/-- The attempt's effect on the instance (R356). -/
def Controller.attempt (c : Controller) (p : Params) (fl : FilterBlock) (i : Inst) (x : MbIx) (stamp : Half)
    (f : Frame) (o : TxOutcome) : Controller :=
  let m := { c.mb x with time := stamp }
  match o with
  | .success keepAlst keepTerr rx =>
    let c' := if c.btr.lbkm then c.offer p fl i f rx else c
    (c'.setMb x (m.succeeded keepAlst keepTerr)).clearLec
  | .arbitrationLost => c.setMb x ({ m with alst := true, txok := false }.failed c.mcr.nart)
  | .error code draws =>
    (c.setMb x ({ m with terr := true, txok := false }.failed c.mcr.nart)).errorEvent (some code) draws

/-- The frames an attempt places on the bus (R356). -/
def sentToBus (c : Controller) (i : Inst) (f : Frame) : TxOutcome → List (Inst × Frame)
  | .success _ _ _ => if c.btr.silm then [] else [(i, f)]
  | .arbitrationLost => []
  | .error _ _ => []

/-- The attempt step (R356). -/
def attemptStep (s : State) (i : Inst) (x : MbIx) (stamp : Half) (byte6 byte7 : Byte) (o : TxOutcome) : State :=
  let c := s.can i
  let f := sentFrame c (c.mb x) byte6 byte7
  (s.setCan i (c.attempt s.params s.filter i x stamp f o)).send (sentToBus c i f o)

/-- The abort's effect on the mailbox (R357). -/
def Mailbox.aborted (m : Mailbox) : Mailbox := { m.complete with txok := false }

/-! ## Errors, wake-up, recovery -/

/-- The effect of a wake-up (R464). -/
def Controller.wake (c : Controller) : Controller :=
  { c with wkui := true, mcr := { c.mcr with sleep := c.mcr.sleep && !c.mcr.awum } }

/-- The effect of bus-off recovery (R465). -/
def Controller.recoverBusOff (c : Controller) : Controller :=
  { c with esr := { c.esr with boff := false, tec := 0, rxec := 0, ewgf := false, epvf := false },
           boffInitSeen := false }

/-! ## The steps -/

/-- The instance an agent step belongs to. -/
def AgentStep.inst : AgentStep → Inst
  | .modeFsm i => i
  | .txAttempt i _ _ _ _ _ => i
  | .txAbort i _ => i
  | .rxFrame i _ _ => i
  | .errorEvent i _ _ => i
  | .wakeUp i => i
  | .busOffRecovery i => i

/-- The enabling condition of a step of an instance's agent on the instance's state. -/
def AgentStep.ready (c : Controller) : AgentStep → Bool
  | .modeFsm _ => !c.resetAsserted && (modeTarget c).isSome
  | .txAttempt _ x _ _ _ o => txAttemptEnabled c x o
  | .txAbort _ x => !c.resetAsserted && (c.mb x).pending && (c.mb x).abrq
  | .rxFrame _ _ _ => !c.resetAsserted && c.mode = .normal && !c.esr.boff && !c.btr.lbkm
  | .errorEvent _ _ _ => !c.resetAsserted && c.mode = .normal
  | .wakeUp _ => !c.resetAsserted && c.mode = .sleep
  | .busOffRecovery _ =>
    !c.resetAsserted && c.esr.boff && c.mode = .normal && (c.mcr.abom || c.boffInitSeen)

/-- Whether a step is enabled: its instance is there, and its condition holds. -/
def AgentStep.enabled (a : AgentStep) (s : State) : Bool :=
  hasInst s.params a.inst && a.ready (s.can a.inst)

/-- The effect of an enabled step. -/
def AgentStep.perform (a : AgentStep) (s : State) : State :=
  match a with
  | .modeFsm i =>
    match modeTarget (s.can i) with
    | some t => s.setCan i ((s.can i).enterMode t)
    | none => s
  | .txAttempt i x stamp byte6 byte7 o => attemptStep s i x stamp byte6 byte7 o
  | .txAbort i x => s.setCan i ((s.can i).setMb x ((s.can i).mb x).aborted)
  | .rxFrame i f d => s.setCan i ((s.can i).offer s.params s.filter i f d)
  | .errorEvent i code d => s.setCan i ((s.can i).errorEvent code d)
  | .wakeUp i => s.setCan i (s.can i).wake
  | .busOffRecovery i => s.setCan i (s.can i).recoverBusOff

/-- A scheduled step: taken if it is enabled, else not taken (log 4). -/
def agentStep (a : AgentStep) (s : State) : State := if a.enabled s then a.perform s else s

/-- The scheduled steps of one gap, in order. -/
def agentSteps (l : List AgentStep) (s : State) : State := l.foldl (fun s a => agentStep a s) s

end Sys2Proof.Machine
end

