-- ==== Sys2Proof/Machine/Ops.lean ====
section
/-! DEFINITION. The host's accesses (00_scope.md R8): the read and write rule of every register, one access with
its checks (60_exceptions.md R458), the read-modify-write, and the gaps between accesses in which agents step
(20_memory.md R131, R133). The block takes no exceptions and has no return from one (R450, R459), so no such
operation stands here. -/

namespace Sys2Proof.Machine

/-! ## Read rules -/

/-- Read MCR (R200). -/
def readMcr (c : Controller) (d : Word) : BusWord where
  val := flagAt c.mcr.inrq 0 ||| flagAt c.mcr.sleep 1 ||| flagAt c.mcr.txfp 2 ||| flagAt c.mcr.rflm 3
    ||| flagAt c.mcr.nart 4 ||| flagAt c.mcr.awum 5 ||| flagAt c.mcr.abom 6 ||| flagAt c.mcr.ttcm 7
    ||| flagAt c.mcr.dbf 16
  free := 0xFFFE7F00
  draw := d

/-- Read MSR (R202): TXM, RXM, SAMP and RX are draws, as are the reserved bits. -/
def readMsr (c : Controller) (d : Word) : BusWord where
  val := flagAt c.inak 0 ||| flagAt c.slak 1 ||| flagAt c.erri 2 ||| flagAt c.wkui 3 ||| flagAt c.slaki 4
  free := 0xFFFFFFE0
  draw := d

/-- The bits of TSR that mailbox x gives (R37, R350). -/
def Mailbox.tsrBits (m : Mailbox) (x : Nat) : Word :=
  flagAt m.rqcp (8 * x) ||| flagAt m.txok (8 * x + 1) ||| flagAt m.alst (8 * x + 2)
    ||| flagAt m.terr (8 * x + 3) ||| flagAt m.abrq (8 * x + 7) ||| flagAt (!m.pending) (26 + x)

/-- Read TSR (R350): CODE and LOWx are draws. -/
def readTsr (c : Controller) (d : Word) : BusWord where
  val := c.mb0.tsrBits 0 ||| c.mb1.tsrBits 1 ||| c.mb2.tsrBits 2
  free := 0xE3707070
  draw := d

/-- Read RFxR (R400). -/
def readRfr (f : Fifo) (d : Word) : BusWord where
  val := BitVec.ofNat 32 f.q.length ||| flagAt f.full 3 ||| flagAt f.fovr 4
  free := 0xFFFFFFC4
  draw := d

/-- Read IER (R452, R39). -/
def readIer (c : Controller) (d : Word) : BusWord where
  val := flagAt c.ier.tmeie 0 ||| flagAt c.ier.fmpie0 1 ||| flagAt c.ier.ffie0 2 ||| flagAt c.ier.fovie0 3
    ||| flagAt c.ier.fmpie1 4 ||| flagAt c.ier.ffie1 5 ||| flagAt c.ier.fovie1 6 ||| flagAt c.ier.ewgie 8
    ||| flagAt c.ier.epvie 9 ||| flagAt c.ier.bofie 10 ||| flagAt c.ier.lecie 11 ||| flagAt c.ier.errie 15
    ||| flagAt c.ier.wkuie 16 ||| flagAt c.ier.slkie 17
  free := 0xFFFC7080
  draw := d

/-- Read ESR (R453). -/
def readEsr (c : Controller) (d : Word) : BusWord where
  val := flagAt c.esr.ewgf 0 ||| flagAt c.esr.epvf 1 ||| flagAt c.esr.boff 2 ||| fieldAt c.esr.lec 4
    ||| fieldAt c.esr.tec 16 ||| fieldAt c.esr.rxec 24
  free := 0x0000FF88
  draw := d

/-- Read BTR (R251): allowed in every mode. -/
def readBtr (c : Controller) (d : Word) : BusWord where
  val := fieldAt c.btr.brp 0 ||| fieldAt c.btr.ts1 16 ||| fieldAt c.btr.ts2 20 ||| fieldAt c.btr.sjw 24
    ||| flagAt c.btr.lbkm 30 ||| flagAt c.btr.silm 31
  free := 0x3C80FC00
  draw := d

/-- Read TIxR (R352): TXRQ reads `pending`. -/
def readTir (m : Mailbox) : BusWord := .ofWord (fieldAt m.tir 1 ||| flagAt m.pending 0)

/-- Read TDTxR (R354). -/
def readTdtr (m : Mailbox) (d : Word) : BusWord where
  val := fieldAt m.dlc 0 ||| flagAt m.tgt 8 ||| fieldAt m.time 16
  free := 0x0000FEF0
  draw := d

/-- A read of an empty FIFO's output mailbox (R402): a draw in every bit. -/
def drawnWord (d : Word) : BusWord where
  val := 0
  free := 0xFFFFFFFF
  draw := d

/-- Read RIxR (R402): bit 0 is reserved. -/
def readRir (f : Fifo) (d : Word) : BusWord :=
  match f.q with
  | [] => drawnWord d
  | e :: _ => { val := fieldAt e.rir 1, free := 0x00000001, draw := d }

/-- Read RDTxR (R402). -/
def readRdtr (f : Fifo) (d : Word) : BusWord :=
  match f.q with
  | [] => drawnWord d
  | e :: _ =>
    { val := fieldAt e.dlc 0 ||| fieldAt e.fmi 8 ||| fieldAt e.time 16, free := 0x000000F0, draw := d }

/-- Read RDLxR (R402). -/
def readRdlr (f : Fifo) (d : Word) : BusWord :=
  match f.q with
  | [] => drawnWord d
  | e :: _ => .ofWord e.dlo

/-- Read RDHxR (R402). -/
def readRdhr (f : Fifo) (d : Word) : BusWord :=
  match f.q with
  | [] => drawnWord d
  | e :: _ => .ofWord e.dhi

/-- Read FMR (R300): CAN2SB is a field only with 28 banks. -/
def readFmr (p : Params) (fl : FilterBlock) (d : Word) : BusWord :=
  match p.nbanks with
  | .banks28 => { val := flagAt fl.finit 0 ||| fieldAt fl.can2sb 8, free := 0xFFFFC0FE, draw := d }
  | .banks14 => { val := flagAt fl.finit 0, free := 0xFFFFFFFE, draw := d }

/-- Read FM1R, FS1R, FFA1R or FA1R (R301, R302): bits at and above `NBANKS` are reserved. -/
def readBankVector (p : Params) (r : BitVec 28) (d : Word) : BusWord where
  val := fieldAt r 0
  free := ~~~(bankMask p)
  draw := d

/-- The read rule of every register: the word a read of it in the window of instance i returns, `d` being the draw
taken for its drawn bits. -/
def readRule (s : State) (i : Inst) (d : Word) : Reg → BusWord
  | .mcr => readMcr (s.can i) d
  | .msr => readMsr (s.can i) d
  | .tsr => readTsr (s.can i) d
  | .rfr x => readRfr ((s.can i).fifo x) d
  | .ier => readIer (s.can i) d
  | .esr => readEsr (s.can i) d
  | .btr => readBtr (s.can i) d
  | .tir x => readTir ((s.can i).mb x)
  | .tdtr x => readTdtr ((s.can i).mb x) d
  | .tdlr x => .ofWord ((s.can i).mb x).dlo
  | .tdhr x => .ofWord ((s.can i).mb x).dhi
  | .rir x => readRir ((s.can i).fifo x) d
  | .rdtr x => readRdtr ((s.can i).fifo x) d
  | .rdlr x => readRdlr ((s.can i).fifo x) d
  | .rdhr x => readRdhr ((s.can i).fifo x) d
  | .fmr => readFmr s.params s.filter d
  | .fm1r => readBankVector s.params s.filter.fbm d
  | .fs1r => readBankVector s.params s.filter.fsc d
  | .ffa1r => readBankVector s.params s.filter.ffa d
  | .fa1r => readBankVector s.params s.filter.fact d
  | .fr b k => .ofWord (s.filter.fr[b].get k)

/-! ## Write rules

Each answers what the write leaves, or why it stops; `a` is the access, recorded by a fault (R451). -/

/-- Write MCR (R201): a request is only stored; `mode` moves by a later `ModeFsm` step. -/
def writeMcr (a : Access) (c : Controller) (v : BusWord) : Except Stop Controller :=
  if v.bit 15 then .error (.refused (.masterResetUnmodelled (.access a)))
  else .ok { c with mcr :=
    { inrq := v.bit 0, sleep := v.bit 1, txfp := v.bit 2, rflm := v.bit 3, nart := v.bit 4, awum := v.bit 5,
      abom := v.bit 6, ttcm := v.bit 7, dbf := v.bit 16 } }

/-- Write MSR (R203): a 1 clears ERRI, WKUI, SLAKI. -/
def writeMsr (c : Controller) (v : BusWord) : Controller :=
  { c with erri := c.erri && !v.bit 2, wkui := c.wkui && !v.bit 3, slaki := c.slaki && !v.bit 4 }

/-- What a TSR write does to mailbox x (R351). -/
def Mailbox.writeStatus (m : Mailbox) (v : BusWord) (x : Nat) : Mailbox :=
  { m with
    rqcp := m.rqcp && !v.bit (8 * x)
    txok := m.txok && !v.bit (8 * x) && !v.bit (8 * x + 1)
    alst := m.alst && !v.bit (8 * x) && !v.bit (8 * x + 2)
    terr := m.terr && !v.bit (8 * x) && !v.bit (8 * x + 3)
    abrq := m.abrq || (v.bit (8 * x + 7) && m.pending) }

/-- Write TSR (R351). -/
def writeTsr (c : Controller) (v : BusWord) : Controller :=
  { c with mb0 := c.mb0.writeStatus v 0, mb1 := c.mb1.writeStatus v 1, mb2 := c.mb2.writeStatus v 2 }

/-- Write RFxR (R401): RFOM releases the head entry at once. -/
def writeRfr (f : Fifo) (v : BusWord) : Fifo where
  full := f.full && !v.bit 3
  fovr := f.fovr && !v.bit 4
  q := if v.bit 5 then f.q.tail else f.q

/-- Write IER (R452). -/
def writeIer (c : Controller) (v : BusWord) : Controller :=
  { c with ier :=
    { tmeie := v.bit 0, fmpie0 := v.bit 1, ffie0 := v.bit 2, fovie0 := v.bit 3, fmpie1 := v.bit 4,
      ffie1 := v.bit 5, fovie1 := v.bit 6, ewgie := v.bit 8, epvie := v.bit 9, bofie := v.bit 10,
      lecie := v.bit 11, errie := v.bit 15, wkuie := v.bit 16, slkie := v.bit 17 } }

/-- Write ESR (R453): only LEC is stored; no ERRI is raised. -/
def writeEsr (c : Controller) (v : BusWord) : Controller :=
  { c with esr := { c.esr with lec := v.field 4 3 } }

/-- Write BTR (R252): only in Init mode. -/
def writeBtr (a : Access) (c : Controller) (v : BusWord) : Except Stop Controller :=
  if c.mode = .init then
    .ok { c with btr := { brp := v.field 0 10, ts1 := v.field 16 4, ts2 := v.field 20 3, sjw := v.field 24 2,
                          lbkm := v.bit 30, silm := v.bit 31 } }
  else .error (.fault (.btrWriteOutsideInit (.access a)))

/-- A mailbox register is writable only while the mailbox is empty (R353 to R355, 92 D21). -/
def Mailbox.ifEmpty (a : Access) (m m' : Mailbox) : Except Stop Mailbox :=
  if m.pending then .error (.fault (.mailboxWriteWhilePending (.access a))) else .ok m'

/-- A transmit request (R353): the mailbox is handed to `TxEngine`, its status bits cleared. -/
def Mailbox.request (m : Mailbox) : Mailbox :=
  { m with pending := true, rqcp := false, txok := false, alst := false, terr := false }

/-- Write TIxR (R353). -/
def writeTir (a : Access) (m : Mailbox) (v : BusWord) : Except Stop Mailbox :=
  let m' := { m with tir := v.field 1 31 }
  m.ifEmpty a (if v.bit 0 then m'.request else m')

/-- Write TDTxR (R354). -/
def writeTdtr (a : Access) (m : Mailbox) (v : BusWord) : Except Stop Mailbox :=
  m.ifEmpty a { m with dlc := v.field 0 4, tgt := v.bit 8, time := v.field 16 16 }

/-- Write TDLxR (R355). -/
def writeTdlr (a : Access) (m : Mailbox) (v : BusWord) : Except Stop Mailbox :=
  m.ifEmpty a { m with dlo := v.whole }

/-- Write TDHxR (R355). -/
def writeTdhr (a : Access) (m : Mailbox) (v : BusWord) : Except Stop Mailbox :=
  m.ifEmpty a { m with dhi := v.whole }

/-- A filter-block write other than FINIT needs the latch (R300 to R303, 92 D13). -/
def FilterBlock.ifLatched (a : Access) (fl fl' : FilterBlock) : Except Stop FilterBlock :=
  if fl.finit then .ok fl' else .error (.fault (.filterWriteOutsideInit (.access a)))

/-- The largest CAN2SB (R300). -/
def maxCan2sb : Nat := 28

/-- Write FMR (R300): with 28 banks a change of CAN2SB needs the latch held before the write, and a value of at
most 28. -/
def writeFmr (a : Access) (p : Params) (fl : FilterBlock) (v : BusWord) : Except Stop FilterBlock :=
  match p.nbanks with
  | .banks14 => .ok { fl with finit := v.bit 0 }
  | .banks28 =>
    if v.field 8 6 = fl.can2sb then .ok { fl with finit := v.bit 0 }
    else if !fl.finit then .error (.fault (.filterWriteOutsideInit (.access a)))
    else if maxCan2sb < (v.field 8 6).toNat then .error (.fault (.can2sbRange (.access a)))
    else .ok { fl with can2sb := v.field 8 6, finit := v.bit 0 }

/-- Write FbRk (R303). -/
def writeFr (a : Access) (fl : FilterBlock) (b : Fin 28) (k : WordIx) (v : BusWord) : Except Stop FilterBlock :=
  fl.ifLatched a { fl with fr := fl.fr.set b (fl.fr[b].set k v.whole) }

/-- The write rule of every register; a write to an output mailbox register is ignored (R128, R403). -/
def writeRule (a : Access) (s : State) (i : Inst) (v : BusWord) : Reg → Except Stop State
  | .mcr => (writeMcr a (s.can i) v).map (s.setCan i)
  | .msr => .ok (s.setCan i (writeMsr (s.can i) v))
  | .tsr => .ok (s.setCan i (writeTsr (s.can i) v))
  | .rfr x => .ok (s.setCan i ((s.can i).setFifo x (writeRfr ((s.can i).fifo x) v)))
  | .ier => .ok (s.setCan i (writeIer (s.can i) v))
  | .esr => .ok (s.setCan i (writeEsr (s.can i) v))
  | .btr => (writeBtr a (s.can i) v).map (s.setCan i)
  | .tir x => (writeTir a ((s.can i).mb x) v).map fun m => s.setCan i ((s.can i).setMb x m)
  | .tdtr x => (writeTdtr a ((s.can i).mb x) v).map fun m => s.setCan i ((s.can i).setMb x m)
  | .tdlr x => (writeTdlr a ((s.can i).mb x) v).map fun m => s.setCan i ((s.can i).setMb x m)
  | .tdhr x => (writeTdhr a ((s.can i).mb x) v).map fun m => s.setCan i ((s.can i).setMb x m)
  | .rir _ => .ok s
  | .rdtr _ => .ok s
  | .rdlr _ => .ok s
  | .rdhr _ => .ok s
  | .fmr => (writeFmr a s.params s.filter v).map s.setFilter
  | .fm1r => (s.filter.ifLatched a { s.filter with fbm := bankBits s.params v }).map s.setFilter
  | .fs1r => (s.filter.ifLatched a { s.filter with fsc := bankBits s.params v }).map s.setFilter
  | .ffa1r => (s.filter.ifLatched a { s.filter with ffa := bankBits s.params v }).map s.setFilter
  | .fa1r => (s.filter.ifLatched a { s.filter with fact := bankBits s.params v }).map s.setFilter
  | .fr b k => (writeFr a s.filter b k v).map s.setFilter

/-! ## Host programs -/

/-- A piece of a host program: it acts on the state and yields a value, or stops. -/
abbrev Prog := StateT State (Except Stop)

/-- Stop with a fault. -/
def Prog.fault {α : Type} (f : Fault) : Prog α := fun _ => .error (.fault f)

/-- The checks that come before a register's own rule, in the order of R458. `none` lets the access through. -/
def checkAccess (s : State) (a : Access) (r : Reg) : Option Fault :=
  if !hasInst s.params a.inst then some (.noSuchInstance (.access a))
  else if (s.can a.inst).resetAsserted then some (.accessDuringReset (.access a))
  else if !decodedIn s.params a.inst r then some (.reservedOffset (.access a))
  else none

/-- Take one draw: the next free value (R8). -/
def takeDraw : Prog Word := fun s => .ok (Config.draw s.draws, s.takeDraws 1)

/-- `RegRead` (R8): one host read. A read takes one draw, whose bits are those its rule leaves open (R126: afresh at
each read). -/
def regRead (i : Inst) (r : Reg) : Prog BusWord := fun s =>
  match checkAccess s (.read i r) r with
  | some f => .error (.fault f)
  | none => .ok (readRule s i (Config.draw s.draws) r, s.takeDraws 1)

/-- `RegWrite` (R8): one host write. -/
def regWrite (i : Inst) (r : Reg) (v : BusWord) : Prog Unit := fun s =>
  match checkAccess s (.write i r v.whole) r with
  | some f => .error (.fault f)
  | none =>
    match writeRule (.write i r v.whole) s i v r with
    | .ok s' => .ok ((), s')
    | .error e => .error e

/-- The state after the next gap: the agent steps scheduled there have been taken; when the schedule has ended none
are (log 4). -/
def afterGap (s : State) : State :=
  match s.gaps with
  | [] => s
  | l :: rest => agentSteps l { s with gaps := rest }

/-- The gap before a further access of an operation: the agent steps scheduled there (R131, log 6). -/
def gap : Prog Unit := fun s => .ok ((), afterGap s)

/-! ## The reset collaborator (R500) -/

/-- A collaborator call needs the instance to be there (log 10). -/
def resetCheck (i : Inst) (s : State) : Bool := hasInst s.params i

/-- What a reset call of an absent instance is reported as: the reset operation of that instance (log 10). -/
def resetCause (i : Inst) : Cause := .operation (.opReset i)

/-- `ResetAssert(i)`. -/
def resetAssert (i : Inst) : Prog Unit := fun s =>
  if resetCheck i s then .ok ((), s.setCan i { s.can i with resetAsserted := true })
  else .error (.fault (.noSuchInstance (resetCause i)))

/-- What `ResetClear(i)` leaves: every field of the instance at its reset value, and the filter block too when i is
its owner. The unspecified contents take fresh draws (R501). -/
def clearReset (i : Inst) (s : State) : State :=
  let s1 := (s.setCan i (.atReset s.draws)).takeDraws controllerResetDraws
  if filterOwner s.params = i then (s1.setFilter (.atReset s1.draws)).takeDraws filterResetDraws else s1

/-- `ResetClear(i)`. -/
def resetClear (i : Inst) : Prog Unit := fun s =>
  if resetCheck i s then .ok ((), clearReset i s)
  else .error (.fault (.noSuchInstance (resetCause i)))

/-! ## Operations as host programs

An operation of 40 to 44 is a host program written once, over a `Driver`: what it does with the host's steps. Carried
out by `byTurns` the program stops after each host step and goes on at the host's next turn, which is how a request of
the host runs (R6, R9); carried out by `atOnce` it runs to its end, the agents stepping in the gaps, which is the
operation's meaning as a whole (log 6). -/

/-- How the host steps of an operation are carried out. -/
structure Driver (m : Type → Type) where
  /-- one host read (R125) -/
  read : Inst → Reg → m BusWord
  /-- one host write (R125) -/
  write : Inst → Reg → BusWord → m Unit
  /-- the collaborator's call (R500) -/
  assertReset : Inst → m Unit
  /-- the collaborator's call (R500) -/
  clearReset : Inst → m Unit
  /-- where agents may step, before a host step that is not the operation's first (R131) -/
  gap : m Unit
  /-- a draw the driver takes (R360) -/
  draw : m Word
  /-- the parameters of R5 -/
  params : m Params
  /-- the operation ends in a fault (R8) -/
  fail : {α : Type} → Fault → m α
  /-- up to so many reads of MSR, until INAK is the Boolean (R217, R218) -/
  poll : Inst → Bool → Nat → m Bool

section
variable {m : Type → Type} [Monad m] (h : Driver m)

/-- A further read of an operation: agents may step before it. -/
def Driver.thenRead (i : Inst) (r : Reg) : m BusWord := do
  h.gap
  h.read i r

/-- A further write of an operation: agents may step before it. -/
def Driver.thenWrite (i : Inst) (r : Reg) (v : BusWord) : m Unit := do
  h.gap
  h.write i r v

/-- `RMW(off, clr, set)` (R8): two accesses, not atomic (R133). -/
def Driver.rmw (i : Inst) (r : Reg) (clr set : Word) : m Unit := do
  let v ← h.read i r
  h.thenWrite i r (v.update clr set)

/-- A further RMW of an operation: agents may step before it too. -/
def Driver.thenRmw (i : Inst) (r : Reg) (clr set : Word) : m Unit := do
  h.gap
  h.rmw i r clr set

end

/-- What an operation without a return value returns. -/
def returnsNone {m : Type → Type} [Monad m] (p : m Unit) : m Result := do
  p
  pure .none

/-- What an operation that returns a Boolean returns. -/
def returnsFlag {m : Type → Type} [Monad m] (p : m Bool) : m Result := do
  let b ← p
  pure (.flag b)

/-! ## Carried out at once -/

/-- The polling loop of R217 and R218: up to `n` reads of MSR, each after a gap. -/
def pollLoop (i : Inst) (want : Bool) : Nat → Prog Bool
  | 0 => pure false
  | n + 1 => do
    gap
    let v ← regRead i .msr
    if v.bit 0 = want then pure true else pollLoop i want n

/-- Reads of MSR that are known to answer as the last one did: `n` reads take `n` draws (log 12). -/
def skipReads (n : Nat) : Prog Unit := fun s => .ok ((), s.takeDraws n)

/-- Whether the schedule has ended, so that no agent steps any more in this operation. -/
def scheduleEnded : Prog Bool := fun s => .ok (s.gaps.isEmpty, s)

/-- `pollLoop`, counted: once the schedule has ended and a read has failed, the remaining reads all answer alike and
are counted at once (log 12). -/
def pollInak (i : Inst) (want : Bool) : Nat → Prog Bool
  | 0 => pure false
  | n + 1 => do
    let ended ← scheduleEnded
    gap
    let v ← regRead i .msr
    if v.bit 0 = want then pure true
    else if ended then do
      skipReads n
      pure false
    else pollInak i want n

/-- An operation run to its end, with the agent steps scheduled in its gaps. -/
def atOnce : Driver Prog where
  read := regRead
  write := regWrite
  assertReset := resetAssert
  clearReset := resetClear
  gap := gap
  draw := takeDraw
  params := fun s => .ok (s.params, s)
  fail := Prog.fault
  poll := pollInak

/-! ## Carried out turn by turn -/

/-- Where an operation is within one turn of the host. -/
structure Turn where
  /-- the answers of earlier turns that have still to be gone through again -/
  answers : List BusWord
  /-- every answer so far, oldest first -/
  taken : List BusWord
  /-- whether the one host step of this turn has been made -/
  made : Bool
  /-- the state -/
  state : State

/-- Why an operation does not go on within a turn. -/
inductive Halt where
  /-- it ends without a result -/
  | stop (e : Stop)
  /-- its turn is over, and more is to come -/
  | waits (t : Turn)

/-- A piece of an operation, turn by turn. -/
abbrev TurnProg := StateT Turn (Except Halt)

/-- A point of an operation that answers. In a later turn the answer is the one given before; else `p` gives it, if
the host step of this turn has not been made yet. `step` says whether `p` is a host step. -/
def turnPoint (step : Bool) (p : Prog BusWord) : TurnProg BusWord := fun t =>
  match t.answers with
  | w :: rest => .ok (w, { t with answers := rest, taken := t.taken ++ [w] })
  | [] =>
    if t.made then .error (.waits t)
    else
      match p t.state with
      | .ok (w, s) => .ok (w, { answers := [], taken := t.taken ++ [w], made := step, state := s })
      | .error e => .error (.stop e)

/-- A host step that answers nothing is recorded as a zero word. -/
def turnUnit (p : Prog Unit) : TurnProg Unit := do
  let _ ← turnPoint true (do
    p
    pure (.ofWord 0))
  pure ()

/-- A draw is no host step: it is taken in the turn of the host step it is for. -/
def turnDraw : TurnProg Word := do
  let w ← turnPoint false (do
    let d ← takeDraw
    pure (.ofWord d))
  pure w.val

/-- One host read. -/
def turnRead (i : Inst) (r : Reg) : TurnProg BusWord := turnPoint true (regRead i r)

/-- The polling loop of R217 and R218, read by read. -/
def turnPoll (i : Inst) (want : Bool) : Nat → TurnProg Bool
  | 0 => pure false
  | n + 1 => do
    let v ← turnRead i .msr
    if v.bit 0 = want then pure true else turnPoll i want n

/-- An operation carried out with one host step a turn (R6, R9): between two turns any agent may step. -/
def byTurns : Driver TurnProg where
  read := turnRead
  write := fun i r v => turnUnit (regWrite i r v)
  assertReset := fun i => turnUnit (resetAssert i)
  clearReset := fun i => turnUnit (resetClear i)
  gap := pure ()
  draw := turnDraw
  params := fun t => .ok (t.state.params, t)
  fail := fun f _ => .error (.stop (.fault f))
  poll := turnPoll

/-! ## Outcomes -/

/-- Run a host program to its end; its value is what the host gets. -/
def finish (p : Prog Result) (s : State) : Host.Outcome State Fault Refusal :=
  match p s with
  | .ok (r, s') => .next (s'.returning r)
  | .error (.fault f) => .fault f
  | .error (.refused r) => .refused r

/-- An operation without a return value. -/
def runUnit (p : Prog Unit) (s : State) : Host.Outcome State Fault Refusal := finish (returnsNone p) s

/-- An operation that returns a Boolean. -/
def runFlag (p : Prog Bool) (s : State) : Host.Outcome State Fault Refusal := finish (returnsFlag p) s

/-- One register read as an instruction: the host gets the word. -/
def readInstr (i : Inst) (r : Reg) (s : State) : Host.Outcome State Fault Refusal :=
  finish (do
    let v ← regRead i r
    pure (.word v)) s

/-- One register write as an instruction. -/
def writeInstr (i : Inst) (r : Reg) (v : Word) (s : State) : Host.Outcome State Fault Refusal :=
  finish (do
    regWrite i r (.ofWord v)
    pure .none) s

end Sys2Proof.Machine
end

