-- ==== Sys2Proof/Machine/BitTiming.lean ====
section
/-! DEFINITION. Bit timing (41_bit_timing.md): BTR, the segment calculator and its operations. -/

namespace Sys2Proof.Machine

/-- `rd BTR` (R251). -/
def execRdBTR (i : Inst) (s : State) : Host.Outcome State Fault Refusal := readInstr i .btr s

/-- `wr BTR` (R252). -/
def execWrBTR (i : Inst) (v : Word) (s : State) : Host.Outcome State Fault Refusal := writeInstr i .btr v s

/-! ## The calculator -/

/-- The sample point of a split as an 8-bit ratio (R254). -/
def samplePoint (ts1 ts2 : Nat) : Nat := (1 + ts1) * 255 / (1 + ts1 + ts2)

/-- What a split whose total divides the quanta count gives (R254, R256): the timing, or the sentinel when the
prescaler is out of range. -/
def convergedTiming (q ts1 ts2 : Nat) : Timing :=
  let brp := q / (1 + ts1 + ts2)
  if 1 ≤ brp && brp ≤ Config.brpMax then { ts1, ts2, brp, sjw := min ts2 Config.sjwMax } else .sentinel

/-- The descent of R254 from a split; the first argument counts the passes left. -/
def descend (q sp : Nat) : Nat → Nat → Nat → Timing
  | 0, _, _ => .sentinel
  | passes + 1, ts1, ts2 =>
    if q % (1 + ts1 + ts2) = 0 then convergedTiming q ts1 ts2
    else if sp < samplePoint ts1 ts2 then
      if ts1 = 1 then .sentinel else descend q sp passes (ts1 - 1) ts2
    else if ts2 = 1 then .sentinel else descend q sp passes ts1 (ts2 - 1)

/-- "the loop returns within 18 passes" (R260). -/
def maxPasses : Nat := 18

/-- `computeTiming` (R254). -/
def computeTiming (rate sp pclk : Nat) : Timing :=
  if rate = 0 then .sentinel else descend (pclk / rate) sp maxPasses 14 5

/-- `getEffectiveBitrate` (R258). -/
def effectiveBitrate (t : Timing) (pclk : Nat) : Nat :=
  if (1 + t.ts1 + t.ts2) * t.brp = 0 then 0 else pclk / ((1 + t.ts1 + t.ts2) * t.brp)

/-! ## Operations -/

/-- The BTR bits the four fields occupy (R257, conflict C1). -/
def btrFieldMask : Word := 0x037F03FF

/-- `applyTiming` (R257): one read, one write that replaces the four fields. -/
def applyTimingProg {m : Type → Type} [Monad m] (h : Driver m) (i : Inst) (t : Timing) : m Unit :=
  if t.inRange then h.rmw i .btr btrFieldMask t.btrFields
  else h.fail (.invalidTiming (.operation (.opApplyTiming i t)))

/-- `op computeTiming` (R254): no register access. -/
def execOpComputeTiming (rate sp pclk : Nat) (s : State) : Host.Outcome State Fault Refusal :=
  finish (pure (.timing (computeTiming rate sp pclk))) s

/-- `op applyTiming` (R257). -/
def execOpApplyTiming (i : Inst) (t : Timing) (s : State) : Host.Outcome State Fault Refusal :=
  runUnit (applyTimingProg atOnce i t) s

/-- `op getEffectiveBitrate` (R258): no register access. -/
def execOpGetEffectiveBitrate (t : Timing) (pclk : Nat) (s : State) : Host.Outcome State Fault Refusal :=
  finish (pure (.rate (effectiveBitrate t pclk))) s

end Sys2Proof.Machine
end

