-- ==== Sys2Proof/Machine/ErrorStatus.lean ====
section
/-! DEFINITION. Interrupt enable and error status (60_exceptions.md R452, R453): IER and ESR. -/

namespace Sys2Proof.Machine

/-- `rd IER` (R452). -/
def execRdIER (i : Inst) (s : State) : Host.Outcome State Fault Refusal := readInstr i .ier s

/-- `wr IER` (R452). -/
def execWrIER (i : Inst) (v : Word) (s : State) : Host.Outcome State Fault Refusal := writeInstr i .ier v s

/-- `rd ESR` (R453). -/
def execRdESR (i : Inst) (s : State) : Host.Outcome State Fault Refusal := readInstr i .esr s

/-- `wr ESR` (R453). -/
def execWrESR (i : Inst) (v : Word) (s : State) : Host.Outcome State Fault Refusal := writeInstr i .esr v s

end Sys2Proof.Machine
end

