-- ==== Sys2Proof/Machine/FilterBank.lean ====
section
/-! DEFINITION. The acceptance filter bank (42_filter_bank.md): FMR, FM1R, FS1R, FFA1R, FA1R and the configuration operations. -/

namespace Sys2Proof.Machine

/-- `rd FMR` (R300). -/
def execRdFMR (i : Inst) (s : State) : Host.Outcome State Fault Refusal := readInstr i .fmr s

/-- `wr FMR` (R300). -/
def execWrFMR (i : Inst) (v : Word) (s : State) : Host.Outcome State Fault Refusal := writeInstr i .fmr v s

/-- `rd FM1R` (R301). -/
def execRdFM1R (i : Inst) (s : State) : Host.Outcome State Fault Refusal := readInstr i .fm1r s

/-- `wr FM1R` (R301). -/
def execWrFM1R (i : Inst) (v : Word) (s : State) : Host.Outcome State Fault Refusal := writeInstr i .fm1r v s

/-- `rd FS1R` (R301). -/
def execRdFS1R (i : Inst) (s : State) : Host.Outcome State Fault Refusal := readInstr i .fs1r s

/-- `wr FS1R` (R301). -/
def execWrFS1R (i : Inst) (v : Word) (s : State) : Host.Outcome State Fault Refusal := writeInstr i .fs1r v s

/-- `rd FFA1R` (R301). -/
def execRdFFA1R (i : Inst) (s : State) : Host.Outcome State Fault Refusal := readInstr i .ffa1r s

/-- `wr FFA1R` (R301). -/
def execWrFFA1R (i : Inst) (v : Word) (s : State) : Host.Outcome State Fault Refusal := writeInstr i .ffa1r v s

/-- `rd FA1R` (R302). -/
def execRdFA1R (i : Inst) (s : State) : Host.Outcome State Fault Refusal := readInstr i .fa1r s

/-- `wr FA1R` (R302). -/
def execWrFA1R (i : Inst) (v : Word) (s : State) : Host.Outcome State Fault Refusal := writeInstr i .fa1r v s

/-! ## Operations -/

/-- The bank a number names, if it exists (R314: `bank >= NBANKS` faults). -/
def bankOf (p : Params) (bank : Nat) : Option (Fin 28) :=
  if h : bank < 28 then if bank < p.nbanks.toNat then some ⟨bank, h⟩ else none else none

/-- `bit(n)` (R7). -/
def bitWord (n : Nat) : Word := BitVec.ofNat 32 (2 ^ n)

section
variable {m : Type → Type} [Monad m] (h : Driver m)

/-- Set or clear one bank's bit of a filter register by a further RMW (R314). -/
def thenBankBit (i : Inst) (r : Reg) (b : Word) (on : Bool) : m Unit :=
  if on then h.thenRmw i r 0 b else h.thenRmw i r b 0

/-- The access sequence of `configureFilter` for an existing bank and FIFO (R314): hold the latch, deactivate, set
scale, mode, FIFO and content, reactivate, release the latch. -/
def configureBank (i : Inst) (b : Fin 28) (scale32 listMode : Bool) (reg1 reg2 : Word) (x : FifoIx)
    (enable : Bool) : m Unit := do
  h.rmw i .fmr 0 0x1
  h.thenRmw i .fa1r (bitWord b.val) 0
  thenBankBit h i .fs1r (bitWord b.val) scale32
  thenBankBit h i .fm1r (bitWord b.val) listMode
  thenBankBit h i .ffa1r (bitWord b.val) (x == .f1)
  h.thenWrite i (.fr b .r1) (.ofWord reg1)
  h.thenWrite i (.fr b .r2) (.ofWord reg2)
  if enable then h.thenRmw i .fa1r 0 (bitWord b.val)
  h.thenRmw i .fmr 0x1 0

/-- `configureFilter` (R314), its range checks before any access (R458); `self` is what a fault records. -/
def configureFilter (self : Instr) (i : Inst) (bank : Nat) (scale32 listMode : Bool) (reg1 reg2 : Word)
    (fifoId : Nat) (enable : Bool) : m Unit := do
  let p ← h.params
  match bankOf p bank, FifoIx.ofNat? fifoId with
  | none, _ => h.fail (.bankOutOfRange (.operation self))
  | some _, none => h.fail (.badFifoId (.operation self))
  | some b, some x => configureBank h i b scale32 listMode reg1 reg2 x enable

/-- `FILTER32_PACK_SHIFT` applied to a word, modulo 2^32 (R316, R318). -/
def packShifted (p : Params) (v : Word) : Word := v <<< p.packShift

/-- `configureFilter` as it is called (R314). -/
def configureFilterProg (i : Inst) (bank : Nat) (scale32 listMode : Bool) (reg1 reg2 : Word) (fifoId : Nat)
    (enable : Bool) : m Unit :=
  configureFilter h (.opConfigureFilter i bank scale32 listMode reg1 reg2 fifoId enable) i bank scale32 listMode
    reg1 reg2 fifoId enable

/-- `filterIdMask16` (R315): mask in the high half, identifier in the low half of each word. -/
def filterIdMask16Prog (i : Inst) (bank : Nat) (id1 mask1 id2 mask2 : Half) (fifoId : Nat) (enable : Bool) : m Unit :=
  configureFilter h (.opFilterIdMask16 i bank id1 mask1 id2 mask2 fifoId enable) i bank false false
    (fieldAt mask1 16 ||| fieldAt id1 0) (fieldAt mask2 16 ||| fieldAt id2 0) fifoId enable

/-- `filterIdMask32` (R316). -/
def filterIdMask32Prog (i : Inst) (bank : Nat) (id mask : Word) (fifoId : Nat) (enable : Bool) : m Unit := do
  let p ← h.params
  configureFilter h (.opFilterIdMask32 i bank id mask fifoId enable) i bank true false (packShifted p id)
    (packShifted p mask) fifoId enable

/-- `filterIdList16` (R317): the first of each pair in the high half. -/
def filterIdList16Prog (i : Inst) (bank : Nat) (id1 id2 id3 id4 : Half) (fifoId : Nat) (enable : Bool) : m Unit :=
  configureFilter h (.opFilterIdList16 i bank id1 id2 id3 id4 fifoId enable) i bank false true
    (fieldAt id1 16 ||| fieldAt id2 0) (fieldAt id3 16 ||| fieldAt id4 0) fifoId enable

/-- `filterIdList32` (R318). -/
def filterIdList32Prog (i : Inst) (bank : Nat) (id1 id2 : Word) (fifoId : Nat) (enable : Bool) : m Unit := do
  let p ← h.params
  configureFilter h (.opFilterIdList32 i bank id1 id2 fifoId enable) i bank true true (packShifted p id1)
    (packShifted p id2) fifoId enable

end

/-- `op configureFilter` (R314). -/
def execOpConfigureFilter (i : Inst) (bank : Nat) (scale32 listMode : Bool) (reg1 reg2 : Word) (fifoId : Nat)
    (enable : Bool) (s : State) : Host.Outcome State Fault Refusal :=
  runUnit (configureFilterProg atOnce i bank scale32 listMode reg1 reg2 fifoId enable) s

/-- `op filterIdMask16` (R315). -/
def execOpFilterIdMask16 (i : Inst) (bank : Nat) (id1 mask1 id2 mask2 : Half) (fifoId : Nat) (enable : Bool)
    (s : State) : Host.Outcome State Fault Refusal :=
  runUnit (filterIdMask16Prog atOnce i bank id1 mask1 id2 mask2 fifoId enable) s

/-- `op filterIdMask32` (R316). -/
def execOpFilterIdMask32 (i : Inst) (bank : Nat) (id mask : Word) (fifoId : Nat) (enable : Bool) (s : State) :
    Host.Outcome State Fault Refusal :=
  runUnit (filterIdMask32Prog atOnce i bank id mask fifoId enable) s

/-- `op filterIdList16` (R317). -/
def execOpFilterIdList16 (i : Inst) (bank : Nat) (id1 id2 id3 id4 : Half) (fifoId : Nat) (enable : Bool)
    (s : State) : Host.Outcome State Fault Refusal :=
  runUnit (filterIdList16Prog atOnce i bank id1 id2 id3 id4 fifoId enable) s

/-- `op filterIdList32` (R318). -/
def execOpFilterIdList32 (i : Inst) (bank : Nat) (id1 id2 : Word) (fifoId : Nat) (enable : Bool) (s : State) :
    Host.Outcome State Fault Refusal :=
  runUnit (filterIdList32Prog atOnce i bank id1 id2 fifoId enable) s

end Sys2Proof.Machine
end

