-- ==== Sys2Proof/Machine/FilterWords.lean ====
section
/-! DEFINITION. The content words of the filter banks (42_filter_bank.md R303): FbR1 and FbR2. -/

namespace Sys2Proof.Machine

/-- `rd F0R1` (R303). -/
def execRdF0R1 (i : Inst) (s : State) : Host.Outcome State Fault Refusal := readInstr i (.fr 0 .r1) s

/-- `wr F0R1` (R303). -/
def execWrF0R1 (i : Inst) (v : Word) (s : State) : Host.Outcome State Fault Refusal := writeInstr i (.fr 0 .r1) v s

/-- `rd F0R2` (R303). -/
def execRdF0R2 (i : Inst) (s : State) : Host.Outcome State Fault Refusal := readInstr i (.fr 0 .r2) s

/-- `wr F0R2` (R303). -/
def execWrF0R2 (i : Inst) (v : Word) (s : State) : Host.Outcome State Fault Refusal := writeInstr i (.fr 0 .r2) v s

/-- `rd F1R1` (R303). -/
def execRdF1R1 (i : Inst) (s : State) : Host.Outcome State Fault Refusal := readInstr i (.fr 1 .r1) s

/-- `wr F1R1` (R303). -/
def execWrF1R1 (i : Inst) (v : Word) (s : State) : Host.Outcome State Fault Refusal := writeInstr i (.fr 1 .r1) v s

/-- `rd F1R2` (R303). -/
def execRdF1R2 (i : Inst) (s : State) : Host.Outcome State Fault Refusal := readInstr i (.fr 1 .r2) s

/-- `wr F1R2` (R303). -/
def execWrF1R2 (i : Inst) (v : Word) (s : State) : Host.Outcome State Fault Refusal := writeInstr i (.fr 1 .r2) v s

/-- `rd F2R1` (R303). -/
def execRdF2R1 (i : Inst) (s : State) : Host.Outcome State Fault Refusal := readInstr i (.fr 2 .r1) s

/-- `wr F2R1` (R303). -/
def execWrF2R1 (i : Inst) (v : Word) (s : State) : Host.Outcome State Fault Refusal := writeInstr i (.fr 2 .r1) v s

/-- `rd F2R2` (R303). -/
def execRdF2R2 (i : Inst) (s : State) : Host.Outcome State Fault Refusal := readInstr i (.fr 2 .r2) s

/-- `wr F2R2` (R303). -/
def execWrF2R2 (i : Inst) (v : Word) (s : State) : Host.Outcome State Fault Refusal := writeInstr i (.fr 2 .r2) v s

/-- `rd F3R1` (R303). -/
def execRdF3R1 (i : Inst) (s : State) : Host.Outcome State Fault Refusal := readInstr i (.fr 3 .r1) s

/-- `wr F3R1` (R303). -/
def execWrF3R1 (i : Inst) (v : Word) (s : State) : Host.Outcome State Fault Refusal := writeInstr i (.fr 3 .r1) v s

/-- `rd F3R2` (R303). -/
def execRdF3R2 (i : Inst) (s : State) : Host.Outcome State Fault Refusal := readInstr i (.fr 3 .r2) s

/-- `wr F3R2` (R303). -/
def execWrF3R2 (i : Inst) (v : Word) (s : State) : Host.Outcome State Fault Refusal := writeInstr i (.fr 3 .r2) v s

/-- `rd F4R1` (R303). -/
def execRdF4R1 (i : Inst) (s : State) : Host.Outcome State Fault Refusal := readInstr i (.fr 4 .r1) s

/-- `wr F4R1` (R303). -/
def execWrF4R1 (i : Inst) (v : Word) (s : State) : Host.Outcome State Fault Refusal := writeInstr i (.fr 4 .r1) v s

/-- `rd F4R2` (R303). -/
def execRdF4R2 (i : Inst) (s : State) : Host.Outcome State Fault Refusal := readInstr i (.fr 4 .r2) s

/-- `wr F4R2` (R303). -/
def execWrF4R2 (i : Inst) (v : Word) (s : State) : Host.Outcome State Fault Refusal := writeInstr i (.fr 4 .r2) v s

/-- `rd F5R1` (R303). -/
def execRdF5R1 (i : Inst) (s : State) : Host.Outcome State Fault Refusal := readInstr i (.fr 5 .r1) s

/-- `wr F5R1` (R303). -/
def execWrF5R1 (i : Inst) (v : Word) (s : State) : Host.Outcome State Fault Refusal := writeInstr i (.fr 5 .r1) v s

/-- `rd F5R2` (R303). -/
def execRdF5R2 (i : Inst) (s : State) : Host.Outcome State Fault Refusal := readInstr i (.fr 5 .r2) s

/-- `wr F5R2` (R303). -/
def execWrF5R2 (i : Inst) (v : Word) (s : State) : Host.Outcome State Fault Refusal := writeInstr i (.fr 5 .r2) v s

/-- `rd F6R1` (R303). -/
def execRdF6R1 (i : Inst) (s : State) : Host.Outcome State Fault Refusal := readInstr i (.fr 6 .r1) s

/-- `wr F6R1` (R303). -/
def execWrF6R1 (i : Inst) (v : Word) (s : State) : Host.Outcome State Fault Refusal := writeInstr i (.fr 6 .r1) v s

/-- `rd F6R2` (R303). -/
def execRdF6R2 (i : Inst) (s : State) : Host.Outcome State Fault Refusal := readInstr i (.fr 6 .r2) s

/-- `wr F6R2` (R303). -/
def execWrF6R2 (i : Inst) (v : Word) (s : State) : Host.Outcome State Fault Refusal := writeInstr i (.fr 6 .r2) v s

/-- `rd F7R1` (R303). -/
def execRdF7R1 (i : Inst) (s : State) : Host.Outcome State Fault Refusal := readInstr i (.fr 7 .r1) s

/-- `wr F7R1` (R303). -/
def execWrF7R1 (i : Inst) (v : Word) (s : State) : Host.Outcome State Fault Refusal := writeInstr i (.fr 7 .r1) v s

/-- `rd F7R2` (R303). -/
def execRdF7R2 (i : Inst) (s : State) : Host.Outcome State Fault Refusal := readInstr i (.fr 7 .r2) s

/-- `wr F7R2` (R303). -/
def execWrF7R2 (i : Inst) (v : Word) (s : State) : Host.Outcome State Fault Refusal := writeInstr i (.fr 7 .r2) v s

/-- `rd F8R1` (R303). -/
def execRdF8R1 (i : Inst) (s : State) : Host.Outcome State Fault Refusal := readInstr i (.fr 8 .r1) s

/-- `wr F8R1` (R303). -/
def execWrF8R1 (i : Inst) (v : Word) (s : State) : Host.Outcome State Fault Refusal := writeInstr i (.fr 8 .r1) v s

/-- `rd F8R2` (R303). -/
def execRdF8R2 (i : Inst) (s : State) : Host.Outcome State Fault Refusal := readInstr i (.fr 8 .r2) s

/-- `wr F8R2` (R303). -/
def execWrF8R2 (i : Inst) (v : Word) (s : State) : Host.Outcome State Fault Refusal := writeInstr i (.fr 8 .r2) v s

/-- `rd F9R1` (R303). -/
def execRdF9R1 (i : Inst) (s : State) : Host.Outcome State Fault Refusal := readInstr i (.fr 9 .r1) s

/-- `wr F9R1` (R303). -/
def execWrF9R1 (i : Inst) (v : Word) (s : State) : Host.Outcome State Fault Refusal := writeInstr i (.fr 9 .r1) v s

/-- `rd F9R2` (R303). -/
def execRdF9R2 (i : Inst) (s : State) : Host.Outcome State Fault Refusal := readInstr i (.fr 9 .r2) s

/-- `wr F9R2` (R303). -/
def execWrF9R2 (i : Inst) (v : Word) (s : State) : Host.Outcome State Fault Refusal := writeInstr i (.fr 9 .r2) v s

/-- `rd F10R1` (R303). -/
def execRdF10R1 (i : Inst) (s : State) : Host.Outcome State Fault Refusal := readInstr i (.fr 10 .r1) s

/-- `wr F10R1` (R303). -/
def execWrF10R1 (i : Inst) (v : Word) (s : State) : Host.Outcome State Fault Refusal := writeInstr i (.fr 10 .r1) v s

/-- `rd F10R2` (R303). -/
def execRdF10R2 (i : Inst) (s : State) : Host.Outcome State Fault Refusal := readInstr i (.fr 10 .r2) s

/-- `wr F10R2` (R303). -/
def execWrF10R2 (i : Inst) (v : Word) (s : State) : Host.Outcome State Fault Refusal := writeInstr i (.fr 10 .r2) v s

/-- `rd F11R1` (R303). -/
def execRdF11R1 (i : Inst) (s : State) : Host.Outcome State Fault Refusal := readInstr i (.fr 11 .r1) s

/-- `wr F11R1` (R303). -/
def execWrF11R1 (i : Inst) (v : Word) (s : State) : Host.Outcome State Fault Refusal := writeInstr i (.fr 11 .r1) v s

/-- `rd F11R2` (R303). -/
def execRdF11R2 (i : Inst) (s : State) : Host.Outcome State Fault Refusal := readInstr i (.fr 11 .r2) s

/-- `wr F11R2` (R303). -/
def execWrF11R2 (i : Inst) (v : Word) (s : State) : Host.Outcome State Fault Refusal := writeInstr i (.fr 11 .r2) v s

/-- `rd F12R1` (R303). -/
def execRdF12R1 (i : Inst) (s : State) : Host.Outcome State Fault Refusal := readInstr i (.fr 12 .r1) s

/-- `wr F12R1` (R303). -/
def execWrF12R1 (i : Inst) (v : Word) (s : State) : Host.Outcome State Fault Refusal := writeInstr i (.fr 12 .r1) v s

/-- `rd F12R2` (R303). -/
def execRdF12R2 (i : Inst) (s : State) : Host.Outcome State Fault Refusal := readInstr i (.fr 12 .r2) s

/-- `wr F12R2` (R303). -/
def execWrF12R2 (i : Inst) (v : Word) (s : State) : Host.Outcome State Fault Refusal := writeInstr i (.fr 12 .r2) v s

/-- `rd F13R1` (R303). -/
def execRdF13R1 (i : Inst) (s : State) : Host.Outcome State Fault Refusal := readInstr i (.fr 13 .r1) s

/-- `wr F13R1` (R303). -/
def execWrF13R1 (i : Inst) (v : Word) (s : State) : Host.Outcome State Fault Refusal := writeInstr i (.fr 13 .r1) v s

/-- `rd F13R2` (R303). -/
def execRdF13R2 (i : Inst) (s : State) : Host.Outcome State Fault Refusal := readInstr i (.fr 13 .r2) s

/-- `wr F13R2` (R303). -/
def execWrF13R2 (i : Inst) (v : Word) (s : State) : Host.Outcome State Fault Refusal := writeInstr i (.fr 13 .r2) v s

/-- `rd F14R1` (R303). -/
def execRdF14R1 (i : Inst) (s : State) : Host.Outcome State Fault Refusal := readInstr i (.fr 14 .r1) s

/-- `wr F14R1` (R303). -/
def execWrF14R1 (i : Inst) (v : Word) (s : State) : Host.Outcome State Fault Refusal := writeInstr i (.fr 14 .r1) v s

/-- `rd F14R2` (R303). -/
def execRdF14R2 (i : Inst) (s : State) : Host.Outcome State Fault Refusal := readInstr i (.fr 14 .r2) s

/-- `wr F14R2` (R303). -/
def execWrF14R2 (i : Inst) (v : Word) (s : State) : Host.Outcome State Fault Refusal := writeInstr i (.fr 14 .r2) v s

/-- `rd F15R1` (R303). -/
def execRdF15R1 (i : Inst) (s : State) : Host.Outcome State Fault Refusal := readInstr i (.fr 15 .r1) s

/-- `wr F15R1` (R303). -/
def execWrF15R1 (i : Inst) (v : Word) (s : State) : Host.Outcome State Fault Refusal := writeInstr i (.fr 15 .r1) v s

/-- `rd F15R2` (R303). -/
def execRdF15R2 (i : Inst) (s : State) : Host.Outcome State Fault Refusal := readInstr i (.fr 15 .r2) s

/-- `wr F15R2` (R303). -/
def execWrF15R2 (i : Inst) (v : Word) (s : State) : Host.Outcome State Fault Refusal := writeInstr i (.fr 15 .r2) v s

/-- `rd F16R1` (R303). -/
def execRdF16R1 (i : Inst) (s : State) : Host.Outcome State Fault Refusal := readInstr i (.fr 16 .r1) s

/-- `wr F16R1` (R303). -/
def execWrF16R1 (i : Inst) (v : Word) (s : State) : Host.Outcome State Fault Refusal := writeInstr i (.fr 16 .r1) v s

/-- `rd F16R2` (R303). -/
def execRdF16R2 (i : Inst) (s : State) : Host.Outcome State Fault Refusal := readInstr i (.fr 16 .r2) s

/-- `wr F16R2` (R303). -/
def execWrF16R2 (i : Inst) (v : Word) (s : State) : Host.Outcome State Fault Refusal := writeInstr i (.fr 16 .r2) v s

/-- `rd F17R1` (R303). -/
def execRdF17R1 (i : Inst) (s : State) : Host.Outcome State Fault Refusal := readInstr i (.fr 17 .r1) s

/-- `wr F17R1` (R303). -/
def execWrF17R1 (i : Inst) (v : Word) (s : State) : Host.Outcome State Fault Refusal := writeInstr i (.fr 17 .r1) v s

/-- `rd F17R2` (R303). -/
def execRdF17R2 (i : Inst) (s : State) : Host.Outcome State Fault Refusal := readInstr i (.fr 17 .r2) s

/-- `wr F17R2` (R303). -/
def execWrF17R2 (i : Inst) (v : Word) (s : State) : Host.Outcome State Fault Refusal := writeInstr i (.fr 17 .r2) v s

/-- `rd F18R1` (R303). -/
def execRdF18R1 (i : Inst) (s : State) : Host.Outcome State Fault Refusal := readInstr i (.fr 18 .r1) s

/-- `wr F18R1` (R303). -/
def execWrF18R1 (i : Inst) (v : Word) (s : State) : Host.Outcome State Fault Refusal := writeInstr i (.fr 18 .r1) v s

/-- `rd F18R2` (R303). -/
def execRdF18R2 (i : Inst) (s : State) : Host.Outcome State Fault Refusal := readInstr i (.fr 18 .r2) s

/-- `wr F18R2` (R303). -/
def execWrF18R2 (i : Inst) (v : Word) (s : State) : Host.Outcome State Fault Refusal := writeInstr i (.fr 18 .r2) v s

/-- `rd F19R1` (R303). -/
def execRdF19R1 (i : Inst) (s : State) : Host.Outcome State Fault Refusal := readInstr i (.fr 19 .r1) s

/-- `wr F19R1` (R303). -/
def execWrF19R1 (i : Inst) (v : Word) (s : State) : Host.Outcome State Fault Refusal := writeInstr i (.fr 19 .r1) v s

/-- `rd F19R2` (R303). -/
def execRdF19R2 (i : Inst) (s : State) : Host.Outcome State Fault Refusal := readInstr i (.fr 19 .r2) s

/-- `wr F19R2` (R303). -/
def execWrF19R2 (i : Inst) (v : Word) (s : State) : Host.Outcome State Fault Refusal := writeInstr i (.fr 19 .r2) v s

/-- `rd F20R1` (R303). -/
def execRdF20R1 (i : Inst) (s : State) : Host.Outcome State Fault Refusal := readInstr i (.fr 20 .r1) s

/-- `wr F20R1` (R303). -/
def execWrF20R1 (i : Inst) (v : Word) (s : State) : Host.Outcome State Fault Refusal := writeInstr i (.fr 20 .r1) v s

/-- `rd F20R2` (R303). -/
def execRdF20R2 (i : Inst) (s : State) : Host.Outcome State Fault Refusal := readInstr i (.fr 20 .r2) s

/-- `wr F20R2` (R303). -/
def execWrF20R2 (i : Inst) (v : Word) (s : State) : Host.Outcome State Fault Refusal := writeInstr i (.fr 20 .r2) v s

/-- `rd F21R1` (R303). -/
def execRdF21R1 (i : Inst) (s : State) : Host.Outcome State Fault Refusal := readInstr i (.fr 21 .r1) s

/-- `wr F21R1` (R303). -/
def execWrF21R1 (i : Inst) (v : Word) (s : State) : Host.Outcome State Fault Refusal := writeInstr i (.fr 21 .r1) v s

/-- `rd F21R2` (R303). -/
def execRdF21R2 (i : Inst) (s : State) : Host.Outcome State Fault Refusal := readInstr i (.fr 21 .r2) s

/-- `wr F21R2` (R303). -/
def execWrF21R2 (i : Inst) (v : Word) (s : State) : Host.Outcome State Fault Refusal := writeInstr i (.fr 21 .r2) v s

/-- `rd F22R1` (R303). -/
def execRdF22R1 (i : Inst) (s : State) : Host.Outcome State Fault Refusal := readInstr i (.fr 22 .r1) s

/-- `wr F22R1` (R303). -/
def execWrF22R1 (i : Inst) (v : Word) (s : State) : Host.Outcome State Fault Refusal := writeInstr i (.fr 22 .r1) v s

/-- `rd F22R2` (R303). -/
def execRdF22R2 (i : Inst) (s : State) : Host.Outcome State Fault Refusal := readInstr i (.fr 22 .r2) s

/-- `wr F22R2` (R303). -/
def execWrF22R2 (i : Inst) (v : Word) (s : State) : Host.Outcome State Fault Refusal := writeInstr i (.fr 22 .r2) v s

/-- `rd F23R1` (R303). -/
def execRdF23R1 (i : Inst) (s : State) : Host.Outcome State Fault Refusal := readInstr i (.fr 23 .r1) s

/-- `wr F23R1` (R303). -/
def execWrF23R1 (i : Inst) (v : Word) (s : State) : Host.Outcome State Fault Refusal := writeInstr i (.fr 23 .r1) v s

/-- `rd F23R2` (R303). -/
def execRdF23R2 (i : Inst) (s : State) : Host.Outcome State Fault Refusal := readInstr i (.fr 23 .r2) s

/-- `wr F23R2` (R303). -/
def execWrF23R2 (i : Inst) (v : Word) (s : State) : Host.Outcome State Fault Refusal := writeInstr i (.fr 23 .r2) v s

/-- `rd F24R1` (R303). -/
def execRdF24R1 (i : Inst) (s : State) : Host.Outcome State Fault Refusal := readInstr i (.fr 24 .r1) s

/-- `wr F24R1` (R303). -/
def execWrF24R1 (i : Inst) (v : Word) (s : State) : Host.Outcome State Fault Refusal := writeInstr i (.fr 24 .r1) v s

/-- `rd F24R2` (R303). -/
def execRdF24R2 (i : Inst) (s : State) : Host.Outcome State Fault Refusal := readInstr i (.fr 24 .r2) s

/-- `wr F24R2` (R303). -/
def execWrF24R2 (i : Inst) (v : Word) (s : State) : Host.Outcome State Fault Refusal := writeInstr i (.fr 24 .r2) v s

/-- `rd F25R1` (R303). -/
def execRdF25R1 (i : Inst) (s : State) : Host.Outcome State Fault Refusal := readInstr i (.fr 25 .r1) s

/-- `wr F25R1` (R303). -/
def execWrF25R1 (i : Inst) (v : Word) (s : State) : Host.Outcome State Fault Refusal := writeInstr i (.fr 25 .r1) v s

/-- `rd F25R2` (R303). -/
def execRdF25R2 (i : Inst) (s : State) : Host.Outcome State Fault Refusal := readInstr i (.fr 25 .r2) s

/-- `wr F25R2` (R303). -/
def execWrF25R2 (i : Inst) (v : Word) (s : State) : Host.Outcome State Fault Refusal := writeInstr i (.fr 25 .r2) v s

/-- `rd F26R1` (R303). -/
def execRdF26R1 (i : Inst) (s : State) : Host.Outcome State Fault Refusal := readInstr i (.fr 26 .r1) s

/-- `wr F26R1` (R303). -/
def execWrF26R1 (i : Inst) (v : Word) (s : State) : Host.Outcome State Fault Refusal := writeInstr i (.fr 26 .r1) v s

/-- `rd F26R2` (R303). -/
def execRdF26R2 (i : Inst) (s : State) : Host.Outcome State Fault Refusal := readInstr i (.fr 26 .r2) s

/-- `wr F26R2` (R303). -/
def execWrF26R2 (i : Inst) (v : Word) (s : State) : Host.Outcome State Fault Refusal := writeInstr i (.fr 26 .r2) v s

/-- `rd F27R1` (R303). -/
def execRdF27R1 (i : Inst) (s : State) : Host.Outcome State Fault Refusal := readInstr i (.fr 27 .r1) s

/-- `wr F27R1` (R303). -/
def execWrF27R1 (i : Inst) (v : Word) (s : State) : Host.Outcome State Fault Refusal := writeInstr i (.fr 27 .r1) v s

/-- `rd F27R2` (R303). -/
def execRdF27R2 (i : Inst) (s : State) : Host.Outcome State Fault Refusal := readInstr i (.fr 27 .r2) s

/-- `wr F27R2` (R303). -/
def execWrF27R2 (i : Inst) (v : Word) (s : State) : Host.Outcome State Fault Refusal := writeInstr i (.fr 27 .r2) v s

end Sys2Proof.Machine
end

