-- ==== Sys2Proof/Machine/ModeController.lean ====
section
/-! DEFINITION. The mode controller (40_mode_controller.md): MCR, MSR and its driver operations. -/

namespace Sys2Proof.Machine

/-- `rd MCR` (R200). -/
def execRdMCR (i : Inst) (s : State) : Host.Outcome State Fault Refusal := readInstr i .mcr s

/-- `wr MCR` (R201). -/
def execWrMCR (i : Inst) (v : Word) (s : State) : Host.Outcome State Fault Refusal := writeInstr i .mcr v s

/-- `rd MSR` (R202). -/
def execRdMSR (i : Inst) (s : State) : Host.Outcome State Fault Refusal := readInstr i .msr s

/-- `wr MSR` (R203). -/
def execWrMSR (i : Inst) (v : Word) (s : State) : Host.Outcome State Fault Refusal := writeInstr i .msr v s

/-! ## Operations -/

section
variable {m : Type → Type} [Monad m] (h : Driver m)

/-- `reset` (R210): the two calls of the collaborator; the other instance's agents may step between them. -/
def resetProg (i : Inst) : m Unit := do
  h.assertReset i
  h.gap
  h.clearReset i

/-- `enterInit` (R211): MCR.INRQ <- 1. -/
def enterInitProg (i : Inst) : m Unit := h.rmw i .mcr 0 0x1

/-- `leaveInit` (R212): MCR.INRQ <- 0. -/
def leaveInitProg (i : Inst) : m Unit := h.rmw i .mcr 0x1 0

/-- `enterSleep` (R213): MCR.SLEEP <- 1. -/
def enterSleepProg (i : Inst) : m Unit := h.rmw i .mcr 0 0x2

/-- `leaveSleep` (R214): MCR.SLEEP <- 0. -/
def leaveSleepProg (i : Inst) : m Unit := h.rmw i .mcr 0x2 0

/-- `enterInitBlocking` (R217). -/
def enterInitBlockingProg (i : Inst) : m Bool := do
  enterInitProg h i
  let p ← h.params
  h.poll i true p.pollBound

/-- `leaveInitBlocking` (R218). -/
def leaveInitBlockingProg (i : Inst) : m Bool := do
  leaveInitProg h i
  let p ← h.params
  h.poll i false p.pollBound

end

/-- `op reset` (R210). -/
def execOpReset (i : Inst) (s : State) : Host.Outcome State Fault Refusal := runUnit (resetProg atOnce i) s

/-- `op enterInit` (R211). -/
def execOpEnterInit (i : Inst) (s : State) : Host.Outcome State Fault Refusal := runUnit (enterInitProg atOnce i) s

/-- `op leaveInit` (R212). -/
def execOpLeaveInit (i : Inst) (s : State) : Host.Outcome State Fault Refusal := runUnit (leaveInitProg atOnce i) s

/-- `op enterSleep` (R213). -/
def execOpEnterSleep (i : Inst) (s : State) : Host.Outcome State Fault Refusal := runUnit (enterSleepProg atOnce i) s

/-- `op leaveSleep` (R214). -/
def execOpLeaveSleep (i : Inst) (s : State) : Host.Outcome State Fault Refusal := runUnit (leaveSleepProg atOnce i) s

/-- `op isInit` (R215): INAK of one MSR read. -/
def execOpIsInit (i : Inst) (s : State) : Host.Outcome State Fault Refusal :=
  runFlag (do
    let v ← regRead i .msr
    pure (v.bit 0)) s

/-- `op isSleep` (R216): SLAK of one MSR read. -/
def execOpIsSleep (i : Inst) (s : State) : Host.Outcome State Fault Refusal :=
  runFlag (do
    let v ← regRead i .msr
    pure (v.bit 1)) s

/-- `op enterInitBlocking` (R217). -/
def execOpEnterInitBlocking (i : Inst) (s : State) : Host.Outcome State Fault Refusal :=
  runFlag (enterInitBlockingProg atOnce i) s

/-- `op leaveInitBlocking` (R218). -/
def execOpLeaveInitBlocking (i : Inst) (s : State) : Host.Outcome State Fault Refusal :=
  runFlag (leaveInitBlockingProg atOnce i) s

end Sys2Proof.Machine
end

