-- ==== Sys2Proof/Machine/Receive.lean ====
section
/-! DEFINITION. The receive FIFOs (44_receive.md): RFxR, the output mailboxes and the driver operations. -/

namespace Sys2Proof.Machine

/-- `rd RF0R` (R400). -/
def execRdRF0R (i : Inst) (s : State) : Host.Outcome State Fault Refusal := readInstr i (.rfr .f0) s

/-- `wr RF0R` (R401). -/
def execWrRF0R (i : Inst) (v : Word) (s : State) : Host.Outcome State Fault Refusal := writeInstr i (.rfr .f0) v s

/-- `rd RF1R` (R400). -/
def execRdRF1R (i : Inst) (s : State) : Host.Outcome State Fault Refusal := readInstr i (.rfr .f1) s

/-- `wr RF1R` (R401). -/
def execWrRF1R (i : Inst) (v : Word) (s : State) : Host.Outcome State Fault Refusal := writeInstr i (.rfr .f1) v s

/-- `rd RI0R` (R402). -/
def execRdRI0R (i : Inst) (s : State) : Host.Outcome State Fault Refusal := readInstr i (.rir .f0) s

/-- `wr RI0R` (R403). -/
def execWrRI0R (i : Inst) (v : Word) (s : State) : Host.Outcome State Fault Refusal := writeInstr i (.rir .f0) v s

/-- `rd RDT0R` (R402). -/
def execRdRDT0R (i : Inst) (s : State) : Host.Outcome State Fault Refusal := readInstr i (.rdtr .f0) s

/-- `wr RDT0R` (R403). -/
def execWrRDT0R (i : Inst) (v : Word) (s : State) : Host.Outcome State Fault Refusal := writeInstr i (.rdtr .f0) v s

/-- `rd RDL0R` (R402). -/
def execRdRDL0R (i : Inst) (s : State) : Host.Outcome State Fault Refusal := readInstr i (.rdlr .f0) s

/-- `wr RDL0R` (R403). -/
def execWrRDL0R (i : Inst) (v : Word) (s : State) : Host.Outcome State Fault Refusal := writeInstr i (.rdlr .f0) v s

/-- `rd RDH0R` (R402). -/
def execRdRDH0R (i : Inst) (s : State) : Host.Outcome State Fault Refusal := readInstr i (.rdhr .f0) s

/-- `wr RDH0R` (R403). -/
def execWrRDH0R (i : Inst) (v : Word) (s : State) : Host.Outcome State Fault Refusal := writeInstr i (.rdhr .f0) v s

/-- `rd RI1R` (R402). -/
def execRdRI1R (i : Inst) (s : State) : Host.Outcome State Fault Refusal := readInstr i (.rir .f1) s

/-- `wr RI1R` (R403). -/
def execWrRI1R (i : Inst) (v : Word) (s : State) : Host.Outcome State Fault Refusal := writeInstr i (.rir .f1) v s

/-- `rd RDT1R` (R402). -/
def execRdRDT1R (i : Inst) (s : State) : Host.Outcome State Fault Refusal := readInstr i (.rdtr .f1) s

/-- `wr RDT1R` (R403). -/
def execWrRDT1R (i : Inst) (v : Word) (s : State) : Host.Outcome State Fault Refusal := writeInstr i (.rdtr .f1) v s

/-- `rd RDL1R` (R402). -/
def execRdRDL1R (i : Inst) (s : State) : Host.Outcome State Fault Refusal := readInstr i (.rdlr .f1) s

/-- `wr RDL1R` (R403). -/
def execWrRDL1R (i : Inst) (v : Word) (s : State) : Host.Outcome State Fault Refusal := writeInstr i (.rdlr .f1) v s

/-- `rd RDH1R` (R402). -/
def execRdRDH1R (i : Inst) (s : State) : Host.Outcome State Fault Refusal := readInstr i (.rdhr .f1) s

/-- `wr RDH1R` (R403). -/
def execWrRDH1R (i : Inst) (v : Word) (s : State) : Host.Outcome State Fault Refusal := writeInstr i (.rdhr .f1) v s

/-! ## Operations -/

/-- Byte k of a data register's word (R159). -/
def wordByte (w : BusWord) (k : Nat) : Byte := w.field (8 * k) 8

/-- The frame `receive` decodes from the four output registers (R406). -/
def decodeFrame (r t lo hi : BusWord) : Received where
  id := if r.bit 2 then .extended (r.field 3 29) else .standard (r.field 21 11)
  isRemoteRequest := r.bit 1
  filterMatchIndex := t.field 8 8
  length := t.field 0 4
  data := #v[wordByte lo 0, wordByte lo 1, wordByte lo 2, wordByte lo 3,
             wordByte hi 0, wordByte hi 1, wordByte hi 2, wordByte hi 3]

/-- RFOM, the release bit of RFxR (R38). -/
def rfomBit : Word := 0x20

section
variable {m : Type → Type} [Monad m] (h : Driver m)

/-- `receive` on an existing FIFO (R406): each output register is read once, in the order shown there. -/
def receiveProg (i : Inst) (x : FifoIx) (autoRelease : Bool) : m Received := do
  let r ← h.read i (.rir x)
  let t ← h.thenRead i (.rdtr x)
  let lo ← h.thenRead i (.rdlr x)
  let hi ← h.thenRead i (.rdhr x)
  if autoRelease then h.thenRmw i (.rfr x) 0 rfomBit
  pure (decodeFrame r t lo hi)

/-- `receive` as it is called: the FIFO number is checked before any access (R406, R458). -/
def receiveCall (i : Inst) (fifoId : Nat) (autoRelease : Bool) : m Result :=
  match FifoIx.ofNat? fifoId with
  | none => h.fail (.badFifoId (.operation (.opReceive i fifoId autoRelease)))
  | some x => do
    let f ← receiveProg h i x autoRelease
    pure (.frame f)

/-- `releaseFifo` (R407): RFOM <- 1 by a read-modify-write. -/
def releaseFifoProg (i : Inst) (fifoId : Nat) : m Unit :=
  match FifoIx.ofNat? fifoId with
  | none => h.fail (.badFifoId (.operation (.opReleaseFifo i fifoId)))
  | some x => h.rmw i (.rfr x) 0 rfomBit

end

/-- `op receive` (R406). -/
def execOpReceive (i : Inst) (fifoId : Nat) (autoRelease : Bool) (s : State) : Host.Outcome State Fault Refusal :=
  finish (receiveCall atOnce i fifoId autoRelease) s

/-- `op releaseFifo` (R407). -/
def execOpReleaseFifo (i : Inst) (fifoId : Nat) (s : State) : Host.Outcome State Fault Refusal :=
  runUnit (releaseFifoProg atOnce i fifoId) s

end Sys2Proof.Machine
end

