-- ==== Sys2Proof/Machine/Transmit.lean ====
section
/-! DEFINITION. The transmit mailboxes (43_transmit.md): TSR, the mailbox registers and the driver operations. -/

namespace Sys2Proof.Machine

/-- `rd TSR` (R350). -/
def execRdTSR (i : Inst) (s : State) : Host.Outcome State Fault Refusal := readInstr i .tsr s

/-- `wr TSR` (R351). -/
def execWrTSR (i : Inst) (v : Word) (s : State) : Host.Outcome State Fault Refusal := writeInstr i .tsr v s

/-- `rd TI0R` (R352). -/
def execRdTI0R (i : Inst) (s : State) : Host.Outcome State Fault Refusal := readInstr i (.tir .m0) s

/-- `wr TI0R` (R353). -/
def execWrTI0R (i : Inst) (v : Word) (s : State) : Host.Outcome State Fault Refusal := writeInstr i (.tir .m0) v s

/-- `rd TDT0R` (R354). -/
def execRdTDT0R (i : Inst) (s : State) : Host.Outcome State Fault Refusal := readInstr i (.tdtr .m0) s

/-- `wr TDT0R` (R354). -/
def execWrTDT0R (i : Inst) (v : Word) (s : State) : Host.Outcome State Fault Refusal := writeInstr i (.tdtr .m0) v s

/-- `rd TDL0R` (R355). -/
def execRdTDL0R (i : Inst) (s : State) : Host.Outcome State Fault Refusal := readInstr i (.tdlr .m0) s

/-- `wr TDL0R` (R355). -/
def execWrTDL0R (i : Inst) (v : Word) (s : State) : Host.Outcome State Fault Refusal := writeInstr i (.tdlr .m0) v s

/-- `rd TDH0R` (R355). -/
def execRdTDH0R (i : Inst) (s : State) : Host.Outcome State Fault Refusal := readInstr i (.tdhr .m0) s

/-- `wr TDH0R` (R355). -/
def execWrTDH0R (i : Inst) (v : Word) (s : State) : Host.Outcome State Fault Refusal := writeInstr i (.tdhr .m0) v s

/-- `rd TI1R` (R352). -/
def execRdTI1R (i : Inst) (s : State) : Host.Outcome State Fault Refusal := readInstr i (.tir .m1) s

/-- `wr TI1R` (R353). -/
def execWrTI1R (i : Inst) (v : Word) (s : State) : Host.Outcome State Fault Refusal := writeInstr i (.tir .m1) v s

/-- `rd TDT1R` (R354). -/
def execRdTDT1R (i : Inst) (s : State) : Host.Outcome State Fault Refusal := readInstr i (.tdtr .m1) s

/-- `wr TDT1R` (R354). -/
def execWrTDT1R (i : Inst) (v : Word) (s : State) : Host.Outcome State Fault Refusal := writeInstr i (.tdtr .m1) v s

/-- `rd TDL1R` (R355). -/
def execRdTDL1R (i : Inst) (s : State) : Host.Outcome State Fault Refusal := readInstr i (.tdlr .m1) s

/-- `wr TDL1R` (R355). -/
def execWrTDL1R (i : Inst) (v : Word) (s : State) : Host.Outcome State Fault Refusal := writeInstr i (.tdlr .m1) v s

/-- `rd TDH1R` (R355). -/
def execRdTDH1R (i : Inst) (s : State) : Host.Outcome State Fault Refusal := readInstr i (.tdhr .m1) s

/-- `wr TDH1R` (R355). -/
def execWrTDH1R (i : Inst) (v : Word) (s : State) : Host.Outcome State Fault Refusal := writeInstr i (.tdhr .m1) v s

/-- `rd TI2R` (R352). -/
def execRdTI2R (i : Inst) (s : State) : Host.Outcome State Fault Refusal := readInstr i (.tir .m2) s

/-- `wr TI2R` (R353). -/
def execWrTI2R (i : Inst) (v : Word) (s : State) : Host.Outcome State Fault Refusal := writeInstr i (.tir .m2) v s

/-- `rd TDT2R` (R354). -/
def execRdTDT2R (i : Inst) (s : State) : Host.Outcome State Fault Refusal := readInstr i (.tdtr .m2) s

/-- `wr TDT2R` (R354). -/
def execWrTDT2R (i : Inst) (v : Word) (s : State) : Host.Outcome State Fault Refusal := writeInstr i (.tdtr .m2) v s

/-- `rd TDL2R` (R355). -/
def execRdTDL2R (i : Inst) (s : State) : Host.Outcome State Fault Refusal := readInstr i (.tdlr .m2) s

/-- `wr TDL2R` (R355). -/
def execWrTDL2R (i : Inst) (v : Word) (s : State) : Host.Outcome State Fault Refusal := writeInstr i (.tdlr .m2) v s

/-- `rd TDH2R` (R355). -/
def execRdTDH2R (i : Inst) (s : State) : Host.Outcome State Fault Refusal := readInstr i (.tdhr .m2) s

/-- `wr TDH2R` (R355). -/
def execWrTDH2R (i : Inst) (v : Word) (s : State) : Host.Outcome State Fault Refusal := writeInstr i (.tdhr .m2) v s

/-! ## Operations -/

/-- The lowest-indexed empty mailbox a TSR word shows (R359): TMEx is bit 26+x. -/
def firstEmpty (t : BusWord) : Option MbIx :=
  if t.bit 26 then some .m0 else if t.bit 27 then some .m1 else if t.bit 28 then some .m2 else none

/-- The identifier word `transmit` writes (R360): high bits are lost in the shift. -/
def identifierWord (id : Word) (ext : Bool) : Word := if ext then (id <<< 3) ||| 4#32 else id <<< 21

/-- Byte k of the payload, if the caller supplies it (R360): k below `min(length, 8)`. -/
def suppliedByte (length : Nat) (data : List Byte) (k : Nat) : Option Byte :=
  if k < min length 8 then data[k]? else none

/-- The bits of a byte the driver leaves to a draw (R360, 92 D18). -/
def drawnBits (b : Option Byte) : Byte := if b.isNone then 0xFF else 0

/-- A data word of `transmit`: the bytes from `k` on, the ones not supplied being draws (R360). -/
def payloadWord (length : Nat) (data : List Byte) (k : Nat) (d : Word) : BusWord :=
  let b := suppliedByte length data
  { val := pack4 ((b k).getD 0) ((b (k + 1)).getD 0) ((b (k + 2)).getD 0) ((b (k + 3)).getD 0)
    free := pack4 (drawnBits (b k)) (drawnBits (b (k + 1))) (drawnBits (b (k + 2))) (drawnBits (b (k + 3)))
    draw := d }

/-- `transmit` into mailbox x, after the TSR read (R360). -/
def fillMailbox {m : Type → Type} [Monad m] (h : Driver m) (i : Inst) (x : MbIx) (id : Word) (ext rtr : Bool)
    (length : Nat) (data : List Byte) : m Unit := do
  h.thenWrite i (.tir x) (.ofWord (identifierWord id ext))
  if rtr then h.thenRmw i (.tir x) 0 0x2
  h.thenRmw i (.tdtr x) 0xF (BitVec.ofNat 32 (length % 16))
  let lo ← h.draw
  let hi ← h.draw
  h.thenWrite i (.tdlr x) (payloadWord length data 0 lo)
  h.thenWrite i (.tdhr x) (payloadWord length data 4 hi)
  h.thenRmw i (.tir x) 0 0x1

/-- `transmit` (R360): the mailbox used, or -1 without any write. -/
def transmitProg {m : Type → Type} [Monad m] (h : Driver m) (i : Inst) (id : Word) (ext rtr : Bool) (length : Nat)
    (data : List Byte) : m Int := do
  let t ← h.read i .tsr
  match firstEmpty t with
  | none => pure (-1)
  | some x => do
    fillMailbox h i x id ext rtr length data
    pure (x.toNat : Int)

/-- `transmit` as it is called (R360). -/
def transmitCall {m : Type → Type} [Monad m] (h : Driver m) (i : Inst) (id : Word) (ext rtr : Bool) (length : Nat)
    (data : List Byte) : m Result := do
  let n ← transmitProg h i id ext rtr length data
  pure (.int n)

/-- `op getEmptyMailbox` (R359): one TSR read. -/
def execOpGetEmptyMailbox (i : Inst) (s : State) : Host.Outcome State Fault Refusal :=
  finish (do
    let t ← regRead i .tsr
    pure (.mailbox (firstEmpty t))) s

/-- `op transmit` (R360). -/
def execOpTransmit (i : Inst) (id : Word) (ext rtr : Bool) (length : Nat) (data : List Byte) (s : State) :
    Host.Outcome State Fault Refusal :=
  finish (transmitCall atOnce i id ext rtr length data) s

/-- `op availableMailbox` (R363): `(RegRead(0x008) & 0x1C00_0000) != 0`. -/
def execOpAvailableMailbox (i : Inst) (s : State) : Host.Outcome State Fault Refusal :=
  finish (do
    let t ← regRead i .tsr
    pure (.flag (t.field 26 3 != 0))) s

end Sys2Proof.Machine
end

