-- ==== Sys2Proof/Machine/Dispatch.lean ====
section
/-! DEFINITION. The dispatch: one arm per constructor of Instr, each a call of that instruction's meaning. -/

namespace Sys2Proof.Machine

def exec (i : Instr) (s : State) : Host.Outcome State Fault Refusal :=
  match i with
  | .rdMCR inst => Sys2Proof.Machine.execRdMCR inst s
  | .wrMCR inst v => Sys2Proof.Machine.execWrMCR inst v s
  | .rdMSR inst => Sys2Proof.Machine.execRdMSR inst s
  | .wrMSR inst v => Sys2Proof.Machine.execWrMSR inst v s
  | .rdTSR inst => Sys2Proof.Machine.execRdTSR inst s
  | .wrTSR inst v => Sys2Proof.Machine.execWrTSR inst v s
  | .rdRF0R inst => Sys2Proof.Machine.execRdRF0R inst s
  | .wrRF0R inst v => Sys2Proof.Machine.execWrRF0R inst v s
  | .rdRF1R inst => Sys2Proof.Machine.execRdRF1R inst s
  | .wrRF1R inst v => Sys2Proof.Machine.execWrRF1R inst v s
  | .rdIER inst => Sys2Proof.Machine.execRdIER inst s
  | .wrIER inst v => Sys2Proof.Machine.execWrIER inst v s
  | .rdESR inst => Sys2Proof.Machine.execRdESR inst s
  | .wrESR inst v => Sys2Proof.Machine.execWrESR inst v s
  | .rdBTR inst => Sys2Proof.Machine.execRdBTR inst s
  | .wrBTR inst v => Sys2Proof.Machine.execWrBTR inst v s
  | .rdTI0R inst => Sys2Proof.Machine.execRdTI0R inst s
  | .wrTI0R inst v => Sys2Proof.Machine.execWrTI0R inst v s
  | .rdTDT0R inst => Sys2Proof.Machine.execRdTDT0R inst s
  | .wrTDT0R inst v => Sys2Proof.Machine.execWrTDT0R inst v s
  | .rdTDL0R inst => Sys2Proof.Machine.execRdTDL0R inst s
  | .wrTDL0R inst v => Sys2Proof.Machine.execWrTDL0R inst v s
  | .rdTDH0R inst => Sys2Proof.Machine.execRdTDH0R inst s
  | .wrTDH0R inst v => Sys2Proof.Machine.execWrTDH0R inst v s
  | .rdTI1R inst => Sys2Proof.Machine.execRdTI1R inst s
  | .wrTI1R inst v => Sys2Proof.Machine.execWrTI1R inst v s
  | .rdTDT1R inst => Sys2Proof.Machine.execRdTDT1R inst s
  | .wrTDT1R inst v => Sys2Proof.Machine.execWrTDT1R inst v s
  | .rdTDL1R inst => Sys2Proof.Machine.execRdTDL1R inst s
  | .wrTDL1R inst v => Sys2Proof.Machine.execWrTDL1R inst v s
  | .rdTDH1R inst => Sys2Proof.Machine.execRdTDH1R inst s
  | .wrTDH1R inst v => Sys2Proof.Machine.execWrTDH1R inst v s
  | .rdTI2R inst => Sys2Proof.Machine.execRdTI2R inst s
  | .wrTI2R inst v => Sys2Proof.Machine.execWrTI2R inst v s
  | .rdTDT2R inst => Sys2Proof.Machine.execRdTDT2R inst s
  | .wrTDT2R inst v => Sys2Proof.Machine.execWrTDT2R inst v s
  | .rdTDL2R inst => Sys2Proof.Machine.execRdTDL2R inst s
  | .wrTDL2R inst v => Sys2Proof.Machine.execWrTDL2R inst v s
  | .rdTDH2R inst => Sys2Proof.Machine.execRdTDH2R inst s
  | .wrTDH2R inst v => Sys2Proof.Machine.execWrTDH2R inst v s
  | .rdRI0R inst => Sys2Proof.Machine.execRdRI0R inst s
  | .wrRI0R inst v => Sys2Proof.Machine.execWrRI0R inst v s
  | .rdRDT0R inst => Sys2Proof.Machine.execRdRDT0R inst s
  | .wrRDT0R inst v => Sys2Proof.Machine.execWrRDT0R inst v s
  | .rdRDL0R inst => Sys2Proof.Machine.execRdRDL0R inst s
  | .wrRDL0R inst v => Sys2Proof.Machine.execWrRDL0R inst v s
  | .rdRDH0R inst => Sys2Proof.Machine.execRdRDH0R inst s
  | .wrRDH0R inst v => Sys2Proof.Machine.execWrRDH0R inst v s
  | .rdRI1R inst => Sys2Proof.Machine.execRdRI1R inst s
  | .wrRI1R inst v => Sys2Proof.Machine.execWrRI1R inst v s
  | .rdRDT1R inst => Sys2Proof.Machine.execRdRDT1R inst s
  | .wrRDT1R inst v => Sys2Proof.Machine.execWrRDT1R inst v s
  | .rdRDL1R inst => Sys2Proof.Machine.execRdRDL1R inst s
  | .wrRDL1R inst v => Sys2Proof.Machine.execWrRDL1R inst v s
  | .rdRDH1R inst => Sys2Proof.Machine.execRdRDH1R inst s
  | .wrRDH1R inst v => Sys2Proof.Machine.execWrRDH1R inst v s
  | .rdFMR inst => Sys2Proof.Machine.execRdFMR inst s
  | .wrFMR inst v => Sys2Proof.Machine.execWrFMR inst v s
  | .rdFM1R inst => Sys2Proof.Machine.execRdFM1R inst s
  | .wrFM1R inst v => Sys2Proof.Machine.execWrFM1R inst v s
  | .rdFS1R inst => Sys2Proof.Machine.execRdFS1R inst s
  | .wrFS1R inst v => Sys2Proof.Machine.execWrFS1R inst v s
  | .rdFFA1R inst => Sys2Proof.Machine.execRdFFA1R inst s
  | .wrFFA1R inst v => Sys2Proof.Machine.execWrFFA1R inst v s
  | .rdFA1R inst => Sys2Proof.Machine.execRdFA1R inst s
  | .wrFA1R inst v => Sys2Proof.Machine.execWrFA1R inst v s
  | .rdF0R1 inst => Sys2Proof.Machine.execRdF0R1 inst s
  | .wrF0R1 inst v => Sys2Proof.Machine.execWrF0R1 inst v s
  | .rdF0R2 inst => Sys2Proof.Machine.execRdF0R2 inst s
  | .wrF0R2 inst v => Sys2Proof.Machine.execWrF0R2 inst v s
  | .rdF1R1 inst => Sys2Proof.Machine.execRdF1R1 inst s
  | .wrF1R1 inst v => Sys2Proof.Machine.execWrF1R1 inst v s
  | .rdF1R2 inst => Sys2Proof.Machine.execRdF1R2 inst s
  | .wrF1R2 inst v => Sys2Proof.Machine.execWrF1R2 inst v s
  | .rdF2R1 inst => Sys2Proof.Machine.execRdF2R1 inst s
  | .wrF2R1 inst v => Sys2Proof.Machine.execWrF2R1 inst v s
  | .rdF2R2 inst => Sys2Proof.Machine.execRdF2R2 inst s
  | .wrF2R2 inst v => Sys2Proof.Machine.execWrF2R2 inst v s
  | .rdF3R1 inst => Sys2Proof.Machine.execRdF3R1 inst s
  | .wrF3R1 inst v => Sys2Proof.Machine.execWrF3R1 inst v s
  | .rdF3R2 inst => Sys2Proof.Machine.execRdF3R2 inst s
  | .wrF3R2 inst v => Sys2Proof.Machine.execWrF3R2 inst v s
  | .rdF4R1 inst => Sys2Proof.Machine.execRdF4R1 inst s
  | .wrF4R1 inst v => Sys2Proof.Machine.execWrF4R1 inst v s
  | .rdF4R2 inst => Sys2Proof.Machine.execRdF4R2 inst s
  | .wrF4R2 inst v => Sys2Proof.Machine.execWrF4R2 inst v s
  | .rdF5R1 inst => Sys2Proof.Machine.execRdF5R1 inst s
  | .wrF5R1 inst v => Sys2Proof.Machine.execWrF5R1 inst v s
  | .rdF5R2 inst => Sys2Proof.Machine.execRdF5R2 inst s
  | .wrF5R2 inst v => Sys2Proof.Machine.execWrF5R2 inst v s
  | .rdF6R1 inst => Sys2Proof.Machine.execRdF6R1 inst s
  | .wrF6R1 inst v => Sys2Proof.Machine.execWrF6R1 inst v s
  | .rdF6R2 inst => Sys2Proof.Machine.execRdF6R2 inst s
  | .wrF6R2 inst v => Sys2Proof.Machine.execWrF6R2 inst v s
  | .rdF7R1 inst => Sys2Proof.Machine.execRdF7R1 inst s
  | .wrF7R1 inst v => Sys2Proof.Machine.execWrF7R1 inst v s
  | .rdF7R2 inst => Sys2Proof.Machine.execRdF7R2 inst s
  | .wrF7R2 inst v => Sys2Proof.Machine.execWrF7R2 inst v s
  | .rdF8R1 inst => Sys2Proof.Machine.execRdF8R1 inst s
  | .wrF8R1 inst v => Sys2Proof.Machine.execWrF8R1 inst v s
  | .rdF8R2 inst => Sys2Proof.Machine.execRdF8R2 inst s
  | .wrF8R2 inst v => Sys2Proof.Machine.execWrF8R2 inst v s
  | .rdF9R1 inst => Sys2Proof.Machine.execRdF9R1 inst s
  | .wrF9R1 inst v => Sys2Proof.Machine.execWrF9R1 inst v s
  | .rdF9R2 inst => Sys2Proof.Machine.execRdF9R2 inst s
  | .wrF9R2 inst v => Sys2Proof.Machine.execWrF9R2 inst v s
  | .rdF10R1 inst => Sys2Proof.Machine.execRdF10R1 inst s
  | .wrF10R1 inst v => Sys2Proof.Machine.execWrF10R1 inst v s
  | .rdF10R2 inst => Sys2Proof.Machine.execRdF10R2 inst s
  | .wrF10R2 inst v => Sys2Proof.Machine.execWrF10R2 inst v s
  | .rdF11R1 inst => Sys2Proof.Machine.execRdF11R1 inst s
  | .wrF11R1 inst v => Sys2Proof.Machine.execWrF11R1 inst v s
  | .rdF11R2 inst => Sys2Proof.Machine.execRdF11R2 inst s
  | .wrF11R2 inst v => Sys2Proof.Machine.execWrF11R2 inst v s
  | .rdF12R1 inst => Sys2Proof.Machine.execRdF12R1 inst s
  | .wrF12R1 inst v => Sys2Proof.Machine.execWrF12R1 inst v s
  | .rdF12R2 inst => Sys2Proof.Machine.execRdF12R2 inst s
  | .wrF12R2 inst v => Sys2Proof.Machine.execWrF12R2 inst v s
  | .rdF13R1 inst => Sys2Proof.Machine.execRdF13R1 inst s
  | .wrF13R1 inst v => Sys2Proof.Machine.execWrF13R1 inst v s
  | .rdF13R2 inst => Sys2Proof.Machine.execRdF13R2 inst s
  | .wrF13R2 inst v => Sys2Proof.Machine.execWrF13R2 inst v s
  | .rdF14R1 inst => Sys2Proof.Machine.execRdF14R1 inst s
  | .wrF14R1 inst v => Sys2Proof.Machine.execWrF14R1 inst v s
  | .rdF14R2 inst => Sys2Proof.Machine.execRdF14R2 inst s
  | .wrF14R2 inst v => Sys2Proof.Machine.execWrF14R2 inst v s
  | .rdF15R1 inst => Sys2Proof.Machine.execRdF15R1 inst s
  | .wrF15R1 inst v => Sys2Proof.Machine.execWrF15R1 inst v s
  | .rdF15R2 inst => Sys2Proof.Machine.execRdF15R2 inst s
  | .wrF15R2 inst v => Sys2Proof.Machine.execWrF15R2 inst v s
  | .rdF16R1 inst => Sys2Proof.Machine.execRdF16R1 inst s
  | .wrF16R1 inst v => Sys2Proof.Machine.execWrF16R1 inst v s
  | .rdF16R2 inst => Sys2Proof.Machine.execRdF16R2 inst s
  | .wrF16R2 inst v => Sys2Proof.Machine.execWrF16R2 inst v s
  | .rdF17R1 inst => Sys2Proof.Machine.execRdF17R1 inst s
  | .wrF17R1 inst v => Sys2Proof.Machine.execWrF17R1 inst v s
  | .rdF17R2 inst => Sys2Proof.Machine.execRdF17R2 inst s
  | .wrF17R2 inst v => Sys2Proof.Machine.execWrF17R2 inst v s
  | .rdF18R1 inst => Sys2Proof.Machine.execRdF18R1 inst s
  | .wrF18R1 inst v => Sys2Proof.Machine.execWrF18R1 inst v s
  | .rdF18R2 inst => Sys2Proof.Machine.execRdF18R2 inst s
  | .wrF18R2 inst v => Sys2Proof.Machine.execWrF18R2 inst v s
  | .rdF19R1 inst => Sys2Proof.Machine.execRdF19R1 inst s
  | .wrF19R1 inst v => Sys2Proof.Machine.execWrF19R1 inst v s
  | .rdF19R2 inst => Sys2Proof.Machine.execRdF19R2 inst s
  | .wrF19R2 inst v => Sys2Proof.Machine.execWrF19R2 inst v s
  | .rdF20R1 inst => Sys2Proof.Machine.execRdF20R1 inst s
  | .wrF20R1 inst v => Sys2Proof.Machine.execWrF20R1 inst v s
  | .rdF20R2 inst => Sys2Proof.Machine.execRdF20R2 inst s
  | .wrF20R2 inst v => Sys2Proof.Machine.execWrF20R2 inst v s
  | .rdF21R1 inst => Sys2Proof.Machine.execRdF21R1 inst s
  | .wrF21R1 inst v => Sys2Proof.Machine.execWrF21R1 inst v s
  | .rdF21R2 inst => Sys2Proof.Machine.execRdF21R2 inst s
  | .wrF21R2 inst v => Sys2Proof.Machine.execWrF21R2 inst v s
  | .rdF22R1 inst => Sys2Proof.Machine.execRdF22R1 inst s
  | .wrF22R1 inst v => Sys2Proof.Machine.execWrF22R1 inst v s
  | .rdF22R2 inst => Sys2Proof.Machine.execRdF22R2 inst s
  | .wrF22R2 inst v => Sys2Proof.Machine.execWrF22R2 inst v s
  | .rdF23R1 inst => Sys2Proof.Machine.execRdF23R1 inst s
  | .wrF23R1 inst v => Sys2Proof.Machine.execWrF23R1 inst v s
  | .rdF23R2 inst => Sys2Proof.Machine.execRdF23R2 inst s
  | .wrF23R2 inst v => Sys2Proof.Machine.execWrF23R2 inst v s
  | .rdF24R1 inst => Sys2Proof.Machine.execRdF24R1 inst s
  | .wrF24R1 inst v => Sys2Proof.Machine.execWrF24R1 inst v s
  | .rdF24R2 inst => Sys2Proof.Machine.execRdF24R2 inst s
  | .wrF24R2 inst v => Sys2Proof.Machine.execWrF24R2 inst v s
  | .rdF25R1 inst => Sys2Proof.Machine.execRdF25R1 inst s
  | .wrF25R1 inst v => Sys2Proof.Machine.execWrF25R1 inst v s
  | .rdF25R2 inst => Sys2Proof.Machine.execRdF25R2 inst s
  | .wrF25R2 inst v => Sys2Proof.Machine.execWrF25R2 inst v s
  | .rdF26R1 inst => Sys2Proof.Machine.execRdF26R1 inst s
  | .wrF26R1 inst v => Sys2Proof.Machine.execWrF26R1 inst v s
  | .rdF26R2 inst => Sys2Proof.Machine.execRdF26R2 inst s
  | .wrF26R2 inst v => Sys2Proof.Machine.execWrF26R2 inst v s
  | .rdF27R1 inst => Sys2Proof.Machine.execRdF27R1 inst s
  | .wrF27R1 inst v => Sys2Proof.Machine.execWrF27R1 inst v s
  | .rdF27R2 inst => Sys2Proof.Machine.execRdF27R2 inst s
  | .wrF27R2 inst v => Sys2Proof.Machine.execWrF27R2 inst v s
  | .opReset inst => Sys2Proof.Machine.execOpReset inst s
  | .opEnterInit inst => Sys2Proof.Machine.execOpEnterInit inst s
  | .opLeaveInit inst => Sys2Proof.Machine.execOpLeaveInit inst s
  | .opEnterSleep inst => Sys2Proof.Machine.execOpEnterSleep inst s
  | .opLeaveSleep inst => Sys2Proof.Machine.execOpLeaveSleep inst s
  | .opIsInit inst => Sys2Proof.Machine.execOpIsInit inst s
  | .opIsSleep inst => Sys2Proof.Machine.execOpIsSleep inst s
  | .opEnterInitBlocking inst => Sys2Proof.Machine.execOpEnterInitBlocking inst s
  | .opLeaveInitBlocking inst => Sys2Proof.Machine.execOpLeaveInitBlocking inst s
  | .opComputeTiming rate sp pclk => Sys2Proof.Machine.execOpComputeTiming rate sp pclk s
  | .opApplyTiming inst t => Sys2Proof.Machine.execOpApplyTiming inst t s
  | .opGetEffectiveBitrate t pclk => Sys2Proof.Machine.execOpGetEffectiveBitrate t pclk s
  | .opConfigureFilter inst bank scale32 listMode reg1 reg2 fifoId enable => Sys2Proof.Machine.execOpConfigureFilter inst bank scale32 listMode reg1 reg2 fifoId enable s
  | .opFilterIdMask16 inst bank id1 mask1 id2 mask2 fifoId enable => Sys2Proof.Machine.execOpFilterIdMask16 inst bank id1 mask1 id2 mask2 fifoId enable s
  | .opFilterIdMask32 inst bank id mask fifoId enable => Sys2Proof.Machine.execOpFilterIdMask32 inst bank id mask fifoId enable s
  | .opFilterIdList16 inst bank id1 id2 id3 id4 fifoId enable => Sys2Proof.Machine.execOpFilterIdList16 inst bank id1 id2 id3 id4 fifoId enable s
  | .opFilterIdList32 inst bank id1 id2 fifoId enable => Sys2Proof.Machine.execOpFilterIdList32 inst bank id1 id2 fifoId enable s
  | .opGetEmptyMailbox inst => Sys2Proof.Machine.execOpGetEmptyMailbox inst s
  | .opTransmit inst id ext rtr length data => Sys2Proof.Machine.execOpTransmit inst id ext rtr length data s
  | .opAvailableMailbox inst => Sys2Proof.Machine.execOpAvailableMailbox inst s
  | .opReceive inst fifoId autoRelease => Sys2Proof.Machine.execOpReceive inst fifoId autoRelease s
  | .opReleaseFifo inst fifoId => Sys2Proof.Machine.execOpReleaseFifo inst fifoId s

end Sys2Proof.Machine
end

