-- ==== Sys2Proof/Machine/Calls.lean ====
section
/-! DEFINITION. Operations as the host issues them: one host step a turn (00_scope.md R6, R9; 20_memory.md R125, R131,
R133). Between two turns the state holds the operation's place, `State.call`, and any agent may step. -/

namespace Sys2Proof.Machine

/-- The host program of an operation of more than one host step. Every other instruction is one host step, or none at
all (R254, R258), and `exec` is that step. -/
def callProg : Instr → Option (TurnProg Result)
  | .opReset i => some (returnsNone (resetProg byTurns i))
  | .opEnterInit i => some (returnsNone (enterInitProg byTurns i))
  | .opLeaveInit i => some (returnsNone (leaveInitProg byTurns i))
  | .opEnterSleep i => some (returnsNone (enterSleepProg byTurns i))
  | .opLeaveSleep i => some (returnsNone (leaveSleepProg byTurns i))
  | .opEnterInitBlocking i => some (returnsFlag (enterInitBlockingProg byTurns i))
  | .opLeaveInitBlocking i => some (returnsFlag (leaveInitBlockingProg byTurns i))
  | .opApplyTiming i t => some (returnsNone (applyTimingProg byTurns i t))
  | .opConfigureFilter i bank scale32 listMode reg1 reg2 fifoId enable =>
    some (returnsNone (configureFilterProg byTurns i bank scale32 listMode reg1 reg2 fifoId enable))
  | .opFilterIdMask16 i bank id1 mask1 id2 mask2 fifoId enable =>
    some (returnsNone (filterIdMask16Prog byTurns i bank id1 mask1 id2 mask2 fifoId enable))
  | .opFilterIdMask32 i bank id mask fifoId enable =>
    some (returnsNone (filterIdMask32Prog byTurns i bank id mask fifoId enable))
  | .opFilterIdList16 i bank id1 id2 id3 id4 fifoId enable =>
    some (returnsNone (filterIdList16Prog byTurns i bank id1 id2 id3 id4 fifoId enable))
  | .opFilterIdList32 i bank id1 id2 fifoId enable =>
    some (returnsNone (filterIdList32Prog byTurns i bank id1 id2 fifoId enable))
  | .opTransmit i id ext rtr length data => some (transmitCall byTurns i id ext rtr length data)
  | .opReceive i fifoId autoRelease => some (receiveCall byTurns i fifoId autoRelease)
  | .opReleaseFifo i fifoId => some (returnsNone (releaseFifoProg byTurns i fifoId))
  | _ => none

/-- One turn of an operation: its next host step. Its result is the host's in the turn of its last step. -/
def turn (op : Instr) (answers : List BusWord) (q : TurnProg Result) (s : State) :
    Host.Outcome State Fault Refusal :=
  match q { answers, taken := [], made := false, state := s } with
  | .ok (r, t) => .next ((t.state.calling none).returning r)
  | .error (.waits t) => .next (t.state.calling (some { op, answers := t.taken }))
  | .error (.stop (.fault f)) => .fault f
  | .error (.stop (.refused r)) => .refused r

/-- The host issues an instruction: its first host step. -/
def issue (i : Instr) (s : State) : Host.Outcome State Fault Refusal :=
  match callProg i with
  | some q => turn i [] q s
  | none => exec i s

/-- The host goes on with the operation it is in. -/
def continueCall (c : Call) (s : State) : Host.Outcome State Fault Refusal :=
  match callProg c.op with
  | some q => turn c.op c.answers q s
  | none => .next (s.calling none)

end Sys2Proof.Machine
end

