-- ==== Sys2Proof/Machine/Fetch.lean ====
section
/-! DEFINITION. The host's turn: the operation it is in goes on, or the next request of its program is decoded and
issued. The block has no program counter (10_state.md R31); the host's order of requests is its program (log 5). -/

namespace Sys2Proof.Machine

/-- What stops any access to an instance's window, before its word is looked at (60_exceptions.md R458, log 10). -/
def accessStop (s : State) (a : Access) : Option Fault :=
  if !hasInst s.params a.inst then some (.noSuchInstance (.access a))
  else if (s.can a.inst).resetAsserted then some (.accessDuringReset (.access a))
  else none

/-- The outcome of an access that is stopped, or else of its own fault. -/
def stoppedAccess (s : State) (a : Access) (f : Fault) : Host.Outcome State Fault Refusal :=
  match accessStop s a with
  | some g => .fault g
  | none => .fault f

/-- The outcome of a request that is no instruction (R124, R152, R154; log 11). -/
def decodeFailure (e : DecodeError) (s : State) : Host.Outcome State Fault Refusal :=
  match e with
  | .badAccessWidth a => stoppedAccess s a (.badAccessWidth (.access a))
  | .reservedOffset a => stoppedAccess s a (.reservedOffset (.access a))
  | .unknownSelector selector => .refused (.unknownSelector selector)
  | .truncated => .refused (.malformedRequest .truncated)
  | .badAccessWord => .refused (.malformedRequest .badAccessWord)
  | .badInstanceByte => .refused (.malformedRequest .badInstanceByte)
  | .badWidthCode => .refused (.malformedRequest .badWidthCode)
  | .badFlag => .refused (.malformedRequest .badFlag)
  | .shortPayload => .refused (.malformedRequest .shortPayload)

/-- Perform what was decoded, as one step. -/
def runDecoded (d : Except DecodeError Instr) (s : State) : Host.Outcome State Fault Refusal :=
  match d with
  | .ok i => exec i s
  | .error e => decodeFailure e s

/-- Issue what was decoded. -/
def issueDecoded (d : Except DecodeError Instr) (s : State) : Host.Outcome State Fault Refusal :=
  match d with
  | .ok i => issue i s
  | .error e => decodeFailure e s

/-- The access a raw bus request makes at an offset of an instance's window (R8, R121). -/
def busAccess (i : Inst) (off : Nat) (width : Width) (write : Option Word) : Access where
  inst := i
  word := BitVec.ofNat 11 ((if write.isSome then 1024 else 0) + off)
  width := width
  data := write

/-- One request of the host (R6). -/
def runRequest (r : HostRequest) (s : State) : Host.Outcome State Fault Refusal :=
  match r with
  | .code c => issueDecoded (decode c) s
  | .atOnce c => runDecoded (decode c) s
  | .bus addr width write =>
    match locate s.params addr with
    | some (i, off) => runDecoded (busAccess i off width write).decode s
    | none => .refused (.outsideWindow addr)
  | .resetAssert i => runUnit (resetAssert i) s
  | .resetClear i => runUnit (resetClear i) s

/-- The host's turn, one host step (R6): the next one of the operation it is in, else the first one of the next request
of its program; with none left the host is idle and nothing changes. -/
def hostTurn (s : State) : Host.Outcome State Fault Refusal :=
  match s.call, s.program with
  | some c, _ => continueCall c s
  | none, [] => .next s
  | none, r :: rest => runRequest r { s with program := rest }

/-- The next step of the interleaving (R6): an agent step scheduled before the host's next access, else the host's
turn. -/
def nextStep (s : State) : Host.Outcome State Fault Refusal :=
  match s.gaps with
  | (a :: l) :: rest => .next (agentStep a { s with gaps := l :: rest })
  | [] :: rest => hostTurn { s with gaps := rest }
  | [] => hostTurn s

end Sys2Proof.Machine
end

