-- ==== Sys2Proof/Machine/Step.lean ====
section
/-! DEFINITION. One step of the machine (00_scope.md R6, R9), and where an instruction is placed for it. -/

namespace Sys2Proof.Machine

/-- One step: of an agent, or of the host. -/
def step (s : State) : Host.Outcome State Fault Refusal := nextStep s

/-- `s` with a table word placed as the host's next request, taken as one step, and the next turn the host's, who is in
the middle of no operation (log 5, log 6). -/
def State.withFetchWord (s : State) (nbits w : Nat) : State :=
  { s with program := .atOnce (tableCode nbits w) :: s.program, call := none, gaps := [] :: s.gaps }

end Sys2Proof.Machine
end

