-- ==== Sys2Proof/Safety.lean ====
section
/-! DEFINITION. What a good state is: the relations between fields of the state that the rules imply and that every
step keeps. Each is a Boolean, so that a concrete state can be checked. -/

namespace Sys2Proof.Machine

/-- Whether an access to register r in the window of instance i is let through (R458): the instance is there, not in
reset, and the register is decoded there. -/
def accessible (s : State) (i : Inst) (r : Reg) : Bool :=
  hasInst s.params i && !(s.can i).resetAsserted && decodedIn s.params i r

/-- The flags of a mailbox: ABRQ only while pending (R351, R356, R357), and a pending request not yet completed
(R353, R356). -/
def Mailbox.wf (m : Mailbox) : Bool := (!m.abrq || m.pending) && (!m.pending || (!m.rqcp && !m.txok))

/-- A FIFO holds at most `FIFO_DEPTH` entries (R55, R405). -/
def Fifo.wf (f : Fifo) : Bool := f.q.length ≤ Config.fifoDepth

/-- EWGF and EPVF agree with the counters (R40, R454, R465). -/
def Esr.wf (e : Esr) : Bool := e.ewgf == ewgfOf e.tec e.rxec && e.epvf == epvfOf e.tec e.rxec

/-- SLAKI only in Sleep (R206, R207), and the recovery request only while bus-off (R58, R465). -/
def Controller.modeWf (c : Controller) : Bool :=
  (!c.slaki || c.mode = .sleep) && (!c.boffInitSeen || c.esr.boff)

/-- A good instance. -/
def Controller.wf (c : Controller) : Bool :=
  c.mb0.wf && c.mb1.wf && c.mb2.wf && c.fifo0.wf && c.fifo1.wf && c.esr.wf && c.modeWf

/-- The bits of banks that do not exist are 0 (R304). -/
def vectorWf (p : Params) (v : BitVec 28) : Bool := v &&& ~~~((bankMask p).setWidth 28) == 0

/-- A good filter block: no bit of a bank that does not exist, and CAN2SB at most 28 (R300). -/
def FilterBlock.wf (p : Params) (fl : FilterBlock) : Bool :=
  vectorWf p fl.fbm && vectorWf p fl.fsc && vectorWf p fl.ffa && vectorWf p fl.fact
    && fl.can2sb.toNat ≤ maxCan2sb

/-- A good state. -/
def State.wf (s : State) : Bool := s.can1.wf && s.can2.wf && s.filter.wf s.params

/-! ## Terms the statements use -/

/-- The reserved offsets of R129 and R152, word-aligned: the gaps of the window, the banks that do not exist, and
the filter block outside the owner's window. -/
def reservedAt (p : Params) (i : Inst) (off : Nat) : Prop :=
  (0x020 ≤ off ∧ off ≤ 0x17F) ∨ (0x1D0 ≤ off ∧ off ≤ 0x1FF) ∨ off = 0x208 ∨ off = 0x210 ∨ off = 0x218
    ∨ (0x220 ≤ off ∧ off ≤ 0x23F) ∨ (0x240 + 8 * p.nbanks.toNat ≤ off ∧ off ≤ 0x3FF)
    ∨ (0x200 ≤ off ∧ off ≤ 0x3FF ∧ filterOwner p ≠ i)

/-- The reset values that R501 gives an instance; the mailbox contents it leaves unspecified. -/
def Controller.isAtReset (c : Controller) : Prop :=
  c.mode = .sleep ∧
  c.mcr = { inrq := false, sleep := true, txfp := false, rflm := false, nart := false, awum := false,
            abom := false, ttcm := false, dbf := true } ∧
  c.erri = false ∧ c.wkui = false ∧ c.slaki = false ∧
  (∀ x : MbIx, (c.mb x).pending = false ∧ (c.mb x).abrq = false ∧ (c.mb x).rqcp = false ∧
    (c.mb x).txok = false ∧ (c.mb x).alst = false ∧ (c.mb x).terr = false) ∧
  (∀ x : FifoIx, c.fifo x = { q := [], full := false, fovr := false }) ∧
  c.ier = { tmeie := false, fmpie0 := false, ffie0 := false, fovie0 := false, fmpie1 := false, ffie1 := false,
            fovie1 := false, ewgie := false, epvie := false, bofie := false, lecie := false, errie := false,
            wkuie := false, slkie := false } ∧
  c.esr = { ewgf := false, epvf := false, boff := false, lec := 0, tec := 0, rxec := 0 } ∧
  c.btr = { brp := 0, ts1 := 3, ts2 := 2, sjw := 1, lbkm := false, silm := false } ∧
  c.boffInitSeen = false ∧ c.resetAsserted = false

/-- The reset values that R501 gives the filter block; the content words it leaves unspecified. -/
def FilterBlock.isAtReset (fl : FilterBlock) : Prop :=
  fl.finit = true ∧ fl.can2sb = 14 ∧ fl.fbm = 0 ∧ fl.fsc = 0 ∧ fl.ffa = 0 ∧ fl.fact = 0

/-- `n` steps of the machine, or the fault or refusal that ends them. -/
def stepsFrom : Nat → State → Host.Outcome State Fault Refusal
  | 0, s => .next s
  | n + 1, s =>
    match step s with
    | .next t => stepsFrom n t
    | .fault f => .fault f
    | .refused r => .refused r

/-- `t` has the block of `s`: the instances, the filter block, the frames sent and the parameters. -/
def sameBlock (s t : State) : Prop :=
  t.can1 = s.can1 ∧ t.can2 = s.can2 ∧ t.filter = s.filter ∧ t.busOut = s.busOut ∧ t.params = s.params

/-- The search of R254 as it is written there, one constructor a way through the loop, with no count of passes:
`Descent q sp ts1 ts2 t` says that from the split `ts1`, `ts2` the search returns `t`. -/
inductive Descent (q sp : Nat) : Nat → Nat → Timing → Prop where
  | found (ts1 ts2 : Nat) : q % (1 + ts1 + ts2) = 0 → 1 ≤ q / (1 + ts1 + ts2) → q / (1 + ts1 + ts2) ≤ 1024 →
      Descent q sp ts1 ts2 { ts1, ts2, brp := q / (1 + ts1 + ts2), sjw := min ts2 4 }
  | outOfRange (ts1 ts2 : Nat) : q % (1 + ts1 + ts2) = 0 →
      q / (1 + ts1 + ts2) < 1 ∨ 1024 < q / (1 + ts1 + ts2) →
      Descent q sp ts1 ts2 { ts1 := 0, ts2 := 0, brp := 0, sjw := 0 }
  | lateStuck (ts2 : Nat) : q % (1 + 1 + ts2) ≠ 0 → sp < (1 + 1) * 255 / (1 + 1 + ts2) →
      Descent q sp 1 ts2 { ts1 := 0, ts2 := 0, brp := 0, sjw := 0 }
  | lateShrink (ts1 ts2 : Nat) (t : Timing) : q % (1 + ts1 + ts2) ≠ 0 → sp < (1 + ts1) * 255 / (1 + ts1 + ts2) →
      ts1 ≠ 1 → Descent q sp (ts1 - 1) ts2 t → Descent q sp ts1 ts2 t
  | earlyStuck (ts1 : Nat) : q % (1 + ts1 + 1) ≠ 0 → (1 + ts1) * 255 / (1 + ts1 + 1) ≤ sp →
      Descent q sp ts1 1 { ts1 := 0, ts2 := 0, brp := 0, sjw := 0 }
  | earlyShrink (ts1 ts2 : Nat) (t : Timing) : q % (1 + ts1 + ts2) ≠ 0 → (1 + ts1) * 255 / (1 + ts1 + ts2) ≤ sp →
      ts2 ≠ 1 → Descent q sp ts1 (ts2 - 1) t → Descent q sp ts1 ts2 t

/-- The lowest-indexed empty mailbox (R359). -/
def Controller.lowestEmpty (c : Controller) : Option MbIx :=
  if c.mb0.pending = false then some .m0
  else if c.mb1.pending = false then some .m1
  else if c.mb2.pending = false then some .m2
  else none

/-- Filter k of bank b is a candidate for frame f offered to instance i (R311). -/
def isCandidate (p : Params) (fl : FilterBlock) (i : Inst) (f : Frame) (b : Fin 28) (k : Nat) : Prop :=
  b.val < p.nbanks.toNat ∧ fl.fact.getLsbD b.val = true ∧ serves p fl b.val i = true ∧ k < fl.count b.val ∧
    filterMatches p (fl.scale32 b.val) (fl.listMode b.val) fl.fr[b] k f = true

/-- Entry e shows frame f accepted by filter number n, with the environment's draws d (R404, R408). -/
def entryShows (e : Entry) (f : Frame) (n : Nat) (d : RxDraws) : Prop :=
  e.rir = f.w32.extractLsb' 1 31 ∧ e.dlc = f.dlc ∧ e.fmi = BitVec.ofNat 8 n ∧ e.time = d.stamp ∧
    ∀ k : Fin 8, (unpack8 e.dlo e.dhi)[k] = if k.val < f.plen then f.data[k] else d.residue[k]

/-- A safe step: it does not fault, is not refused, and leaves a good state. -/
def safeStep (s : State) : Prop := ∃ s', step s = .next s' ∧ s'.wf = true

end Sys2Proof.Machine
end

