-- ==== Sys2Proof/Certificates/Slice0/Obligations.lean ====
section
/-! DEFINITION. The statements of this model, from the numbered rules of spec/. In each, `s` is any state, `i` any
instance, and `accessible s i r` says that instance i is there, not in reset, and that register r is decoded in its
window: the conditions under which R151, R152, R500 let an access through. A next state given by an equation is the
whole next state: every field it does not name is unchanged. `(s.takeDraws n).returning v` is `s` with n draws taken and
v given to the host. -/

open Sys2Proof Sys2Proof.Machine

/-! ## Encoding (30_encoding.md, 20_memory.md) -/

/-- Words of the opcode table, written out from the encodings of spec/ (R150, R151, R154), decode to the instruction
they stand for, the operand bytes after them being zeros; a selector not in R154 decodes to nothing. -/
def Obligations.TableWordSamplesDecode : Prop :=
  decodeTableWord 16 0b00000000000 = some (.rdMCR .can1) ∧
  decodeTableWord 16 0b10000000100 = some (.wrMSR .can1 0) ∧
  decodeTableWord 16 0b00000011100 = some (.rdBTR .can1) ∧
  decodeTableWord 16 0b10000011000 = some (.wrESR .can1 0) ∧
  decodeTableWord 16 0b10110010000 = some (.wrTI1R .can1 0) ∧
  decodeTableWord 16 0b00111001100 = some (.rdRDH1R .can1) ∧
  decodeTableWord 16 0b01000011100 = some (.rdFA1R .can1) ∧
  decodeTableWord 16 0b01010110000 = some (.rdF14R1 .can1) ∧
  decodeTableWord 8 0x07 = some (.opEnterInitBlocking .can1) ∧
  decodeTableWord 8 0x20 = some (.opComputeTiming 0 0 0) ∧
  decodeTableWord 8 0x42 = some (.opFilterIdMask32 .can1 0 0 0 0 false) ∧
  decodeTableWord 8 0x61 = some (.opTransmit .can1 0 false false 0 []) ∧
  decodeTableWord 8 0x81 = some (.opReleaseFifo .can1 0) ∧
  decodeTableWord 8 0x09 = none

/-- Decoding the encoding of a well-formed instruction gives it back, whatever bytes follow. -/
def Obligations.DecodeInvertsEncode : Prop :=
  ∀ (i : Instr) (extra : List Byte), i.wellFormed = true →
    decode { fmt := (encode i).fmt, bytes := (encode i).bytes ++ extra } = .ok i

/-- Whatever decodes is well formed, and the bytes it was read from are its encoding: no two encodings stand for one
instruction. -/
def Obligations.DecodedBytesAreTheEncoding : Prop :=
  ∀ (c : HostCode) (i : Instr), decode c = .ok i →
    i.wellFormed = true ∧ (encode i).fmt = c.fmt ∧ (encode i).bytes <+: c.bytes

/-- R151's table: a 32-bit access at each offset selects the register there, W choosing the read or the write. -/
def Obligations.OffsetsSelectRegisters : Prop :=
  ∀ (i : Inst) (v : Word),
    let selects (off : Nat) (r : Reg) : Prop :=
      Access.decode { inst := i, word := BitVec.ofNat 11 off, width := .w32, data := none } = .ok (Instr.rd r i) ∧
      Access.decode { inst := i, word := BitVec.ofNat 11 (0x400 + off), width := .w32, data := some v }
        = .ok (Instr.wr r i v)
    selects 0x000 .mcr ∧ selects 0x004 .msr ∧ selects 0x008 .tsr ∧ selects 0x00C (.rfr .f0) ∧
    selects 0x010 (.rfr .f1) ∧ selects 0x014 .ier ∧ selects 0x018 .esr ∧ selects 0x01C .btr ∧
    (∀ x : MbIx, selects (0x180 + 0x10 * x.toNat) (.tir x) ∧ selects (0x184 + 0x10 * x.toNat) (.tdtr x) ∧
      selects (0x188 + 0x10 * x.toNat) (.tdlr x) ∧ selects (0x18C + 0x10 * x.toNat) (.tdhr x)) ∧
    (∀ x : FifoIx, selects (0x1B0 + 0x10 * x.toNat) (.rir x) ∧ selects (0x1B4 + 0x10 * x.toNat) (.rdtr x) ∧
      selects (0x1B8 + 0x10 * x.toNat) (.rdlr x) ∧ selects (0x1BC + 0x10 * x.toNat) (.rdhr x)) ∧
    selects 0x200 .fmr ∧ selects 0x204 .fm1r ∧ selects 0x20C .fs1r ∧ selects 0x214 .ffa1r ∧ selects 0x21C .fa1r ∧
    (∀ b : Fin 28, selects (0x240 + 8 * b.val) (.fr b .r1) ∧ selects (0x244 + 8 * b.val) (.fr b .r2))

/-- R121: a raw 32-bit access at `CAN_BASE[i] + off` is the access to offset `off` of instance i, when the windows of
the two instances do not overlap. -/
def Obligations.PhysicalAddressesReachTheirRegister : Prop :=
  ∀ (s : State) (i : Inst) (off : Nat) (width : Width) (w : Option Word),
    hasInst s.params i = true → off < 0x400 →
    (s.params.canBase1 + 0x400 ≤ s.params.canBase2 ∨ s.params.canBase2 + 0x400 ≤ s.params.canBase1) →
    runRequest (.bus ((match i with | .can1 => s.params.canBase1 | .can2 => s.params.canBase2) + off) width w) s
      = runDecoded (Access.decode { inst := i, word := BitVec.ofNat 11 ((if w.isSome then 0x400 else 0) + off),
                                    width := width, data := w }) s

/-- R152, R129: a 32-bit access at a reserved offset faults, for reads and for writes: the gaps of the window, the
banks that do not exist, and the whole filter block outside the owner's window. -/
def Obligations.ReservedOffsetsFault : Prop :=
  ∀ (s : State) (i : Inst) (off : Nat) (w : Option Word),
    hasInst s.params i = true → (s.can i).resetAsserted = false → off % 4 = 0 → reservedAt s.params i off →
    let a : Access := { inst := i, word := BitVec.ofNat 11 ((if w.isSome then 0x400 else 0) + off), width := .w32,
                        data := w }
    runDecoded a.decode s = .fault (.reservedOffset (.access a))

/-- R124: an access of another width, or at an offset that is not a multiple of 4, faults. -/
def Obligations.BadWidthOrAlignmentFaults : Prop :=
  ∀ (s : State) (i : Inst) (off : Nat) (width : Width) (w : Option Word),
    hasInst s.params i = true → (s.can i).resetAsserted = false → off < 0x400 → (width ≠ .w32 ∨ off % 4 ≠ 0) →
    let a : Access := { inst := i, word := BitVec.ofNat 11 ((if w.isSome then 0x400 else 0) + off), width := width,
                        data := w }
    runDecoded a.decode s = .fault (.badAccessWidth (.access a))

/-- R154: a selector not in the table is refused. -/
def Obligations.UnknownSelectorsAreRefused : Prop :=
  ∀ (s : State) (selector : Byte) (operands : List Byte),
    selector.toNat ∉ [0x00, 0x01, 0x02, 0x03, 0x04, 0x05, 0x06, 0x07, 0x08, 0x20, 0x21, 0x22, 0x40, 0x41, 0x42,
      0x43, 0x44, 0x60, 0x61, 0x62, 0x80, 0x81] →
    runRequest (.code { fmt := .operation, bytes := selector :: operands }) s = .refused (.unknownSelector selector)

/-- A step is the next turn of the interleaving: an agent step scheduled before the host's next host step, else the
host's. Of a host in the middle of no operation it is `exec` of the instruction that the next request decodes to, when
that instruction is at most one host step or the request is taken at once; `withFetchWord` places such a request. An
operation of several host steps runs one a turn: see OperationsAreTheirHostSteps. -/
def Obligations.StepRunsTheDecodedInstruction : Prop :=
  (∀ (s : State) (c : HostCode) (rest : List HostRequest) (i : Instr), decode c = .ok i → s.call = none →
    s.program = .atOnce c :: rest ∨ (s.program = .code c :: rest ∧ callProg i = none) →
      (s.gaps = [] → step s = exec i { s with program := rest }) ∧
      (∀ g, s.gaps = [] :: g → step s = exec i { s with program := rest, gaps := g })) ∧
  (∀ (s : State) (a : AgentStep) (l : List AgentStep) (g : List (List AgentStep)), s.gaps = (a :: l) :: g →
    step s = .next (agentStep a { s with gaps := l :: g })) ∧
  (∀ (s : State) (nbits w : Nat) (i : Instr), decodeTableWord nbits w = some i →
    step (s.withFetchWord nbits w) = exec i { s with call := none })

/-! ## Reset (70_reset_and_hazards.md) -/

/-- R501, R500: at power-up every instance and the filter block hold their reset values and nothing has been sent. -/
def Obligations.ResetStateIsPowerUp : Prop :=
  State.reset.can1.isAtReset ∧ State.reset.can2.isAtReset ∧ State.reset.filter.isAtReset ∧ State.reset.busOut = []

/-- R210, R500, R502: each call of the reset collaborator is one atomic step, and `op reset`, the two calls with a gap
between them, completes (log 21). Afterwards instance i is at its reset values, the filter block too when i owns it, and
nothing else has changed but by the agent steps of that gap. -/
def Obligations.ResetRestoresPowerUp : Prop :=
  ∀ (s : State) (i : Inst), hasInst s.params i = true →
    let asserted := s.setCan i { s.can i with resetAsserted := true }
    let cleared (m t : State) : Prop :=
      (t.can i).isAtReset ∧ (filterOwner s.params = i → t.filter.isAtReset) ∧
      (filterOwner s.params ≠ i → t.filter = s.filter) ∧ (∀ j, j ≠ i → t.can j = m.can j) ∧
      t.busOut = m.busOut ∧ t.gaps = m.gaps ∧ t.params = s.params ∧ t.program = s.program ∧ t.call = s.call ∧
      t.result = .none
    runRequest (.resetAssert i) s = .next (asserted.returning .none) ∧
    (∃ t, runRequest (.resetClear i) s = .next t ∧ cleared s t) ∧
    (∃ t, exec (.opReset i) s = .next t ∧ cleared (afterGap asserted) t)

/-- R500, R458: while the reset of i is asserted every access to its window faults, before any other check, and none
of its agents steps. -/
def Obligations.ResetAssertedStopsEverything : Prop :=
  ∀ (s : State) (i : Inst), hasInst s.params i = true → (s.can i).resetAsserted = true →
    (∀ (off : Nat) (width : Width) (w : Option Word), off < 0x400 →
      let a : Access := { inst := i, word := BitVec.ofNat 11 ((if w.isSome then 0x400 else 0) + off),
                          width := width, data := w }
      runDecoded a.decode s = .fault (.accessDuringReset (.access a))) ∧
    (∀ a : AgentStep, a.inst = i → agentStep a s = s)

/-! ## Reads and the mode controller (40_mode_controller.md) -/

/-- R126: a read completes, and changes no state of the block. Every read instruction is `Instr.rd r i` for its
register r: rdMCR, rdMSR, rdTSR, rdRF0R, rdRF1R, rdIER, rdESR, rdBTR, rdTI0R to rdTDH2R, rdRI0R to rdRDH1R, rdFMR,
rdFM1R, rdFS1R, rdFFA1R, rdFA1R, rdF0R1 to rdF27R2. The bits its rule leaves open are one fresh draw. -/
def Obligations.ReadsChangeNoBlockState : Prop :=
  ∀ (s : State) (i : Inst) (r : Reg), accessible s i r = true →
    ∃ w : BusWord, exec (Instr.rd r i) s = .next { s with draws := s.draws + 1, result := .word w } ∧
      (w.free = 0 ∨ w.draw = Config.draw s.draws)

/-- R200, R35, R202, R36: the bits a read of MCR and of MSR returns; the other bits are draws. -/
def Obligations.McrAndMsrReadTheirFields : Prop :=
  ∀ (s : State) (i : Inst), accessible s i .mcr = true →
    (∃ w : BusWord, exec (.rdMCR i) s = .next ((s.takeDraws 1).returning (.word w)) ∧
      w.word.getLsbD 0 = (s.can i).mcr.inrq ∧ w.word.getLsbD 1 = (s.can i).mcr.sleep ∧
      w.word.getLsbD 2 = (s.can i).mcr.txfp ∧ w.word.getLsbD 3 = (s.can i).mcr.rflm ∧
      w.word.getLsbD 4 = (s.can i).mcr.nart ∧ w.word.getLsbD 5 = (s.can i).mcr.awum ∧
      w.word.getLsbD 6 = (s.can i).mcr.abom ∧ w.word.getLsbD 7 = (s.can i).mcr.ttcm ∧
      w.word.getLsbD 15 = false ∧ w.word.getLsbD 16 = (s.can i).mcr.dbf ∧ w.free = 0xFFFE7F00) ∧
    (∃ w : BusWord, exec (.rdMSR i) s = .next ((s.takeDraws 1).returning (.word w)) ∧
      w.word.getLsbD 0 = decide ((s.can i).mode = .init) ∧ w.word.getLsbD 1 = decide ((s.can i).mode = .sleep) ∧
      w.word.getLsbD 2 = (s.can i).erri ∧ w.word.getLsbD 3 = (s.can i).wkui ∧
      w.word.getLsbD 4 = (s.can i).slaki ∧ w.free = 0xFFFFFFE0)

/-- R201, R203: a write of MCR stores its fields and moves no mode; with bit 15 set it is refused. A write of MSR
clears each of ERRI, WKUI, SLAKI where it has a 1. -/
def Obligations.McrAndMsrWrites : Prop :=
  ∀ (s : State) (i : Inst) (v : Word), accessible s i .mcr = true →
    (v.getLsbD 15 = false → exec (.wrMCR i v) s = .next ((s.setCan i { s.can i with mcr :=
      { inrq := v.getLsbD 0, sleep := v.getLsbD 1, txfp := v.getLsbD 2, rflm := v.getLsbD 3, nart := v.getLsbD 4,
        awum := v.getLsbD 5, abom := v.getLsbD 6, ttcm := v.getLsbD 7, dbf := v.getLsbD 16 } }).returning .none)) ∧
    (v.getLsbD 15 = true →
      exec (.wrMCR i v) s = .refused (.masterResetUnmodelled (.access (.write i .mcr v)))) ∧
    exec (.wrMSR i v) s = .next ((s.setCan i { s.can i with
      erri := (s.can i).erri && !v.getLsbD 2, wkui := (s.can i).wkui && !v.getLsbD 3,
      slaki := (s.can i).slaki && !v.getLsbD 4 }).returning .none)

/-- R204 to R207 and R209: where the mode state machine may go, with the effects of entering Init, entering Sleep and
leaving Sleep; where it may not go it does not step. With both requests set it may enter Init and never leaves it. -/
def Obligations.ModeFsmFollowsTheRequestTable : Prop :=
  ∀ (s : State) (i : Inst), hasInst s.params i = true →
    let c := s.can i
    let s' := agentStep (.modeFsm i) s
    (c.resetAsserted = true → s' = s) ∧
    (c.resetAsserted = false →
      (c.mcr.inrq = true → c.mode = .init → s' = s) ∧
      (c.mcr.inrq = true → c.mode ≠ .init → s' = s.setCan i { c with
        mode := .init, boffInitSeen := c.boffInitSeen || c.esr.boff,
        slaki := c.slaki && decide (c.mode ≠ .sleep) }) ∧
      (c.mcr.inrq = false → c.mcr.sleep = true → c.mode = .sleep → s' = s) ∧
      (c.mcr.inrq = false → c.mcr.sleep = true → c.mode ≠ .sleep → s' = s.setCan i { c with
        mode := .sleep, slaki := c.slaki || c.ier.slkie }) ∧
      (c.mcr.inrq = false → c.mcr.sleep = false → c.mode = .normal → s' = s) ∧
      (c.mcr.inrq = false → c.mcr.sleep = false → c.mode ≠ .normal → s' = s.setCan i { c with
        mode := .normal, slaki := c.slaki && decide (c.mode ≠ .sleep) }))

/-- R211 to R214: each request operation completes and rewrites one bit of MCR, the other bits as they were READ: a
change an agent makes to MCR between the two accesses is lost (R133). -/
def Obligations.ModeRequestsRewriteOneMcrBit : Prop :=
  ∀ (s : State) (i : Inst), accessible s i .mcr = true →
    let m := afterGap (s.takeDraws 1)
    exec (.opEnterInit i) s
      = .next ((m.setCan i { m.can i with mcr := { (s.can i).mcr with inrq := true } }).returning .none) ∧
    exec (.opLeaveInit i) s
      = .next ((m.setCan i { m.can i with mcr := { (s.can i).mcr with inrq := false } }).returning .none) ∧
    exec (.opEnterSleep i) s
      = .next ((m.setCan i { m.can i with mcr := { (s.can i).mcr with sleep := true } }).returning .none) ∧
    exec (.opLeaveSleep i) s
      = .next ((m.setCan i { m.can i with mcr := { (s.can i).mcr with sleep := false } }).returning .none)

/-- R215, R216: the two queries return the acknowledged mode and change nothing. -/
def Obligations.ModeQueriesReadTheMode : Prop :=
  ∀ (s : State) (i : Inst), accessible s i .msr = true →
    exec (.opIsInit i) s = .next ((s.takeDraws 1).returning (.flag (decide ((s.can i).mode = .init)))) ∧
    exec (.opIsSleep i) s = .next ((s.takeDraws 1).returning (.flag (decide ((s.can i).mode = .sleep))))

/-- R217, R218: the blocking calls complete. They leave the request bit as written, return true only when the mode was
seen, and false only when the last of `POLL_BOUND` reads did not see it; without agent steps the whole next state is
given. -/
def Obligations.BlockingModeCallsPollTheMode : Prop :=
  ∀ (s : State) (i : Inst), accessible s i .mcr = true →
    let c := s.can i
    let n := s.params.pollBound
    (∃ t b, exec (.opEnterInitBlocking i) s = .next t ∧ t.result = .flag b ∧ (t.can i).mcr.inrq = true ∧
      (b = true → (t.can i).mode = .init) ∧ (b = false → 0 < n → (t.can i).mode ≠ .init) ∧
      t.params = s.params ∧ t.filter = s.filter ∧ t.program = s.program) ∧
    (∃ t b, exec (.opLeaveInitBlocking i) s = .next t ∧ t.result = .flag b ∧ (t.can i).mcr.inrq = false ∧
      (b = true → (t.can i).mode ≠ .init) ∧ (b = false → 0 < n → (t.can i).mode = .init) ∧
      t.params = s.params ∧ t.filter = s.filter ∧ t.program = s.program) ∧
    (s.gaps = [] →
      exec (.opEnterInitBlocking i) s = .next
        (((s.setCan i { c with mcr := { c.mcr with inrq := true } }).takeDraws
          (1 + if c.mode = .init then min 1 n else n)).returning
            (.flag (decide (c.mode = .init) && decide (0 < n)))) ∧
      exec (.opLeaveInitBlocking i) s = .next
        (((s.setCan i { c with mcr := { c.mcr with inrq := false } }).takeDraws
          (1 + if c.mode = .init then n else min 1 n)).returning
            (.flag (decide (c.mode ≠ .init) && decide (0 < n)))))

/-- R217: after a successful `enterInitBlocking` the mode is Init, no sequence of agent steps leaves it, and `isInit`
returns true. -/
def Obligations.EnterInitSuccessIsStable : Prop :=
  ∀ (s t : State) (i : Inst), exec (.opEnterInitBlocking i) s = .next t → t.result = .flag true →
    ∀ l : List AgentStep, ((agentSteps l t).can i).mode = .init ∧
      exec (.opIsInit i) (agentSteps l t) = .next (((agentSteps l t).takeDraws 1).returning (.flag true))

/-- R6, R9, R125: the host's turn is at most one host step. Whatever operation the host is in, its turn leaves the block
as it was, or as one register write or one call of the reset collaborator leaves it. Its turns and the agent steps
scheduled between them add up to `exec`: from the request of any instruction some number of steps reaches exactly the
outcome of `exec`. The counted polling that `exec` uses (log 12) is the loop of R217 and R218, read by read. -/
def Obligations.OperationsAreTheirHostSteps : Prop :=
  (∀ s t : State, (∀ a l g, s.gaps ≠ (a :: l) :: g) → (s.call = none → ∀ c rest, s.program ≠ .atOnce c :: rest) →
    step s = .next t →
      sameBlock s t ∨ (∃ i r v m, regWrite i r v s = .ok ((), m) ∧ sameBlock m t) ∨
      ∃ i, hasInst s.params i = true ∧
        (sameBlock (s.setCan i { s.can i with resetAsserted := true }) t ∨ sameBlock (clearReset i s) t)) ∧
  (∀ (s : State) (c : HostCode) (rest : List HostRequest) (i : Instr), decode c = .ok i → s.call = none →
    s.program = .code c :: rest →
      (s.gaps = [] → ∃ n, 0 < n ∧ stepsFrom n s = exec i { s with program := rest }) ∧
      (∀ g, s.gaps = [] :: g → ∃ n, 0 < n ∧ stepsFrom n s = exec i { s with program := rest, gaps := g })) ∧
  (∀ (i : Inst) (want : Bool) (n : Nat) (s : State), pollInak i want n s = pollLoop i want n s)

/-- R33: the mode of an instance changes only by a step of its `ModeFsm` or by a reset: no other instruction and no
other agent changes it. -/
def Obligations.ModeMovesOnlyByFsmOrReset : Prop :=
  (∀ (ins : Instr) (s t : State) (j : Inst), exec ins s = .next t → s.gaps = [] → ins ≠ .opReset j →
    (t.can j).mode = (s.can j).mode) ∧
  (∀ (a : AgentStep) (s : State) (j : Inst), a ≠ .modeFsm j → ((agentStep a s).can j).mode = (s.can j).mode)

/-! ## Bit timing (41_bit_timing.md) -/

/-- R251, R252, R41: the fields of BTR read and written; a write outside Init faults. -/
def Obligations.BtrReadAndWrite : Prop :=
  ∀ (s : State) (i : Inst) (v : Word), accessible s i .btr = true →
    let c := s.can i
    (∃ w : BusWord, exec (.rdBTR i) s = .next ((s.takeDraws 1).returning (.word w)) ∧
      w.word.extractLsb' 0 10 = c.btr.brp ∧ w.word.extractLsb' 16 4 = c.btr.ts1 ∧
      w.word.extractLsb' 20 3 = c.btr.ts2 ∧ w.word.extractLsb' 24 2 = c.btr.sjw ∧
      w.word.getLsbD 30 = c.btr.lbkm ∧ w.word.getLsbD 31 = c.btr.silm ∧ w.free = 0x3C80FC00) ∧
    (c.mode = .init → exec (.wrBTR i v) s = .next ((s.setCan i { c with btr :=
      { brp := v.extractLsb' 0 10, ts1 := v.extractLsb' 16 4, ts2 := v.extractLsb' 20 3, sjw := v.extractLsb' 24 2,
        lbkm := v.getLsbD 30, silm := v.getLsbD 31 } }).returning .none)) ∧
    (c.mode ≠ .init → exec (.wrBTR i v) s = .fault (.btrWriteOutsideInit (.access (.write i .btr v))))

/-- R254, R255, R260: `computeTiming` completes without touching the block, returns the sentinel for rate 0, and else
exactly what the search of R254 returns. -/
def Obligations.ComputeTimingFollowsTheDescent : Prop :=
  ∀ (rate sp pclk : Nat) (s : State),
    ∃ t, exec (.opComputeTiming rate sp pclk) s = .next (s.returning (.timing t)) ∧
      (rate = 0 → t = { ts1 := 0, ts2 := 0, brp := 0, sjw := 0 }) ∧
      (0 < rate → Descent (pclk / rate) sp 14 5 t)

/-- What `computeTiming` returns is the sentinel or a valid timing (R250) with `sjw = min(ts2, 4)` (R256) whose total
divides the quanta count: the consequence of R254 that R259 marks derived. -/
def Obligations.ComputedTimingsAreValid : Prop :=
  ∀ (rate sp pclk : Nat),
    let t := computeTiming rate sp pclk
    t = { ts1 := 0, ts2 := 0, brp := 0, sjw := 0 } ∨
      (0 < rate ∧ 1 ≤ t.ts1 ∧ t.ts1 ≤ 16 ∧ 1 ≤ t.ts2 ∧ t.ts2 ≤ 8 ∧ 1 ≤ t.brp ∧ t.brp ≤ 1024 ∧ 1 ≤ t.sjw ∧
        t.sjw = min t.ts2 4 ∧ pclk / rate = (1 + t.ts1 + t.ts2) * t.brp)

/-- `getEffectiveBitrate` completes with the floor quotient (0 for a zero divisor) of R258, and gives back a rate that
divides the clock when `computeTiming` found a timing for it: the consequence that R259 marks derived. -/
def Obligations.EffectiveBitrateInvertsTheCalculator : Prop :=
  (∀ (t : Timing) (pclk : Nat) (s : State), exec (.opGetEffectiveBitrate t pclk) s = .next (s.returning (.rate
    (if (1 + t.ts1 + t.ts2) * t.brp = 0 then 0 else pclk / ((1 + t.ts1 + t.ts2) * t.brp))))) ∧
  (∀ (rate sp pclk : Nat) (s : State), rate ∣ pclk →
    computeTiming rate sp pclk ≠ { ts1 := 0, ts2 := 0, brp := 0, sjw := 0 } →
    exec (.opGetEffectiveBitrate (computeTiming rate sp pclk) pclk) s = .next (s.returning (.rate rate)))

/-- R257, R158: in Init `applyTiming` writes the four fields in one access, keeps LBKM and SILM, and the timing reads
back; outside Init at the write it faults there; out of range it faults before any access. -/
def Obligations.ApplyTimingReplacesTheFourFields : Prop :=
  ∀ (s : State) (i : Inst) (t : Timing),
    let valid := (1 ≤ t.ts1 ∧ t.ts1 ≤ 16) ∧ (1 ≤ t.ts2 ∧ t.ts2 ≤ 8) ∧ (1 ≤ t.brp ∧ t.brp ≤ 1024) ∧
      (1 ≤ t.sjw ∧ t.sjw ≤ 4)
    let m := afterGap (s.takeDraws 1)
    (¬valid → exec (.opApplyTiming i t) s = .fault (.invalidTiming (.operation (.opApplyTiming i t)))) ∧
    (valid → accessible s i .btr = true →
      ((m.can i).mode = .init → ∃ b : Btr,
        exec (.opApplyTiming i t) s = .next ((m.setCan i { m.can i with btr := b }).returning .none) ∧
        b.timing = t ∧ b.lbkm = (s.can i).btr.lbkm ∧ b.silm = (s.can i).btr.silm) ∧
      ((m.can i).mode ≠ .init → ∃ v : Word,
        exec (.opApplyTiming i t) s = .fault (.btrWriteOutsideInit (.access (.write i .btr v)))))

/-! ## The filter bank (42_filter_bank.md) -/

/-- R300 to R304: what the filter registers read, for every bank that exists; the bits above are draws. -/
def Obligations.FilterRegistersReadTheirBanks : Prop :=
  ∀ (s : State) (i : Inst), accessible s i .fmr = true →
    let fl := s.filter
    let reads (ins : Instr) (P : BusWord → Prop) : Prop :=
      ∃ w : BusWord, exec ins s = .next ((s.takeDraws 1).returning (.word w)) ∧ P w
    let vector (v : BitVec 28) (w : BusWord) : Prop :=
      ∀ b, b < 32 → (b < s.params.nbanks.toNat → w.word.getLsbD b = v.getLsbD b) ∧
        w.free.getLsbD b = decide (s.params.nbanks.toNat ≤ b)
    reads (.rdFMR i) (fun w => w.word.getLsbD 0 = fl.finit ∧
      (s.params.nbanks = .banks28 → w.word.extractLsb' 8 6 = fl.can2sb ∧ w.free = 0xFFFFC0FE) ∧
      (s.params.nbanks = .banks14 → w.free = 0xFFFFFFFE)) ∧
    reads (.rdFM1R i) (vector fl.fbm) ∧ reads (.rdFS1R i) (vector fl.fsc) ∧
    reads (.rdFFA1R i) (vector fl.ffa) ∧ reads (.rdFA1R i) (vector fl.fact) ∧
    (∀ b : Fin 28, b.val < s.params.nbanks.toNat →
      reads (Instr.rd (.fr b .r1) i) (fun w => w.word = fl.fr[b].r1 ∧ w.free = 0) ∧
      reads (Instr.rd (.fr b .r2) i) (fun w => w.word = fl.fr[b].r2 ∧ w.free = 0))

/-- R300: a write of FMR takes or releases the latch; with 28 banks it also sets CAN2SB, which needs the latch held
before the write and a value of at most 28, in that order of checks. -/
def Obligations.FmrWriteHoldsOrReleasesTheLatch : Prop :=
  ∀ (s : State) (i : Inst) (v : Word), accessible s i .fmr = true →
    let fl := s.filter
    let split := v.extractLsb' 8 6
    (s.params.nbanks = .banks14 ∨ split = fl.can2sb →
      exec (.wrFMR i v) s = .next ((s.setFilter { fl with finit := v.getLsbD 0 }).returning .none)) ∧
    (s.params.nbanks = .banks28 → split ≠ fl.can2sb →
      (fl.finit = false → exec (.wrFMR i v) s = .fault (.filterWriteOutsideInit (.access (.write i .fmr v)))) ∧
      (fl.finit = true → 28 < split.toNat →
        exec (.wrFMR i v) s = .fault (.can2sbRange (.access (.write i .fmr v)))) ∧
      (fl.finit = true → split.toNat ≤ 28 →
        exec (.wrFMR i v) s = .next ((s.setFilter { fl with can2sb := split, finit := v.getLsbD 0 }).returning .none)))

/-- R301, R302, R304: with the latch held a write of FM1R, FS1R, FFA1R or FA1R stores the bits of the banks that exist;
with the latch released it faults. -/
def Obligations.BankVectorWritesNeedTheLatch : Prop :=
  ∀ (s : State) (i : Inst) (v : Word), accessible s i .fmr = true →
    let fl := s.filter
    (fl.finit = true → ∃ r : BitVec 28, (∀ b, r.getLsbD b = (decide (b < s.params.nbanks.toNat) && v.getLsbD b)) ∧
      exec (.wrFM1R i v) s = .next ((s.setFilter { fl with fbm := r }).returning .none) ∧
      exec (.wrFS1R i v) s = .next ((s.setFilter { fl with fsc := r }).returning .none) ∧
      exec (.wrFFA1R i v) s = .next ((s.setFilter { fl with ffa := r }).returning .none) ∧
      exec (.wrFA1R i v) s = .next ((s.setFilter { fl with fact := r }).returning .none)) ∧
    (fl.finit = false →
      exec (.wrFM1R i v) s = .fault (.filterWriteOutsideInit (.access (.write i .fm1r v))) ∧
      exec (.wrFS1R i v) s = .fault (.filterWriteOutsideInit (.access (.write i .fs1r v))) ∧
      exec (.wrFFA1R i v) s = .fault (.filterWriteOutsideInit (.access (.write i .ffa1r v))) ∧
      exec (.wrFA1R i v) s = .fault (.filterWriteOutsideInit (.access (.write i .fa1r v))))

/-- R303: with the latch held a write of a bank word (wrF0R1 to wrF27R2) stores all 32 bits and leaves every other
word alone; with the latch released it faults. -/
def Obligations.BankWordWritesStoreOneWord : Prop :=
  ∀ (s : State) (i : Inst) (b : Fin 28) (k : WordIx) (v : Word), accessible s i (.fr b k) = true →
    (s.filter.finit = true → ∃ words : Vector BankWords 28,
      exec (Instr.wr (.fr b k) i v) s = .next ((s.setFilter { s.filter with fr := words }).returning .none) ∧
      words[b].get k = v ∧ ∀ (b' : Fin 28) (k' : WordIx), (b', k') ≠ (b, k) →
        words[b'].get k' = s.filter.fr[b'].get k') ∧
    (s.filter.finit = false →
      exec (Instr.wr (.fr b k) i v) s = .fault (.filterWriteOutsideInit (.access (.write i (.fr b k) v))))

/-- R314, R319: `configureFilter` completes through the owner's window for an existing bank; the bank's scale, mode,
FIFO, activation and words are the ones given, the latch is released, every other bank keeps its own, and no agent step
changes any of it afterwards. -/
def Obligations.ConfigureFilterRoundTrip : Prop :=
  ∀ (s : State) (i : Inst) (b : Fin 28) (scale32 listMode : Bool) (reg1 reg2 : Word) (x : FifoIx) (enable : Bool),
    accessible s i .fmr = true → b.val < s.params.nbanks.toNat →
    ∃ t, exec (.opConfigureFilter i b.val scale32 listMode reg1 reg2 x.toNat enable) s = .next t ∧
      t.filter.finit = false ∧ t.filter.can2sb = s.filter.can2sb ∧
      (∀ k, k < s.params.nbanks.toNat →
        t.filter.fsc.getLsbD k = (if k = b.val then scale32 else s.filter.fsc.getLsbD k) ∧
        t.filter.fbm.getLsbD k = (if k = b.val then listMode else s.filter.fbm.getLsbD k) ∧
        t.filter.ffa.getLsbD k = (if k = b.val then decide (x = .f1) else s.filter.ffa.getLsbD k) ∧
        t.filter.fact.getLsbD k = (if k = b.val then enable else s.filter.fact.getLsbD k)) ∧
      (∀ k : Fin 28, t.filter.fr[k] = if k = b then { r1 := reg1, r2 := reg2 } else s.filter.fr[k]) ∧
      (∀ l : List AgentStep, (agentSteps l t).filter = t.filter) ∧
      t.params = s.params ∧ t.program = s.program ∧ t.result = .none ∧
      t.draws = s.draws + 6 + (if enable then 1 else 0) ∧
      (s.gaps = [] → t.can1 = s.can1 ∧ t.can2 = s.can2 ∧ t.busOut = s.busOut ∧ t.gaps = [])

/-- R315 to R318: each helper completes and is `configureFilter` on the words it packs from its arguments; the shift of
the 32-bit helpers is the parameter. -/
def Obligations.FilterHelpersPackTheirArguments : Prop :=
  ∀ (s : State) (i : Inst) (bank fifoId : Nat) (enable : Bool),
    accessible s i .fmr = true → bank < s.params.nbanks.toNat → fifoId < 2 →
    let same (helper : Instr) (scale32 listMode : Bool) (reg1 reg2 : Word) : Prop :=
      ∃ t, exec helper s = .next t ∧
        exec (.opConfigureFilter i bank scale32 listMode reg1 reg2 fifoId enable) s = .next t
    let shift := s.params.packShift
    (∀ id1 mask1 id2 mask2 : Half, same (.opFilterIdMask16 i bank id1 mask1 id2 mask2 fifoId enable) false false
      (mask1 ++ id1) (mask2 ++ id2)) ∧
    (∀ id mask : Word, same (.opFilterIdMask32 i bank id mask fifoId enable) true false
      (BitVec.ofNat 32 (id.toNat * 2 ^ shift)) (BitVec.ofNat 32 (mask.toNat * 2 ^ shift))) ∧
    (∀ id1 id2 id3 id4 : Half, same (.opFilterIdList16 i bank id1 id2 id3 id4 fifoId enable) false true
      (id1 ++ id2) (id3 ++ id4)) ∧
    (∀ id1 id2 : Word, same (.opFilterIdList32 i bank id1 id2 fifoId enable) true true
      (BitVec.ofNat 32 (id1.toNat * 2 ^ shift)) (BitVec.ofNat 32 (id2.toNat * 2 ^ shift)))

/-- R314, R458: the bank number, then the FIFO number, are checked before any access, in every state. -/
def Obligations.FilterOperationsCheckTheirArguments : Prop :=
  ∀ (s : State) (i : Inst) (bank fifoId : Nat) (scale32 listMode enable : Bool) (reg1 reg2 : Word)
    (id1 id2 id3 id4 : Half),
    let fails (ins : Instr) : Prop :=
      (s.params.nbanks.toNat ≤ bank → exec ins s = .fault (.bankOutOfRange (.operation ins))) ∧
      (bank < s.params.nbanks.toNat → 2 ≤ fifoId → exec ins s = .fault (.badFifoId (.operation ins)))
    fails (.opConfigureFilter i bank scale32 listMode reg1 reg2 fifoId enable) ∧
    fails (.opFilterIdMask16 i bank id1 id2 id3 id4 fifoId enable) ∧
    fails (.opFilterIdMask32 i bank reg1 reg2 fifoId enable) ∧
    fails (.opFilterIdList16 i bank id1 id2 id3 id4 fifoId enable) ∧
    fails (.opFilterIdList32 i bank reg1 reg2 fifoId enable)

/-- R307 to R310, R306: filter k of a bank with the given scale, mode and words matches a frame exactly when the bits it
compares are equal; a bank holds 1, 2, 2 or 4 filters and no more. -/
def Obligations.FiltersCompareTheirBits : Prop :=
  ∀ (p : Params) (w : BankWords) (f : Frame),
    let compared (j : Nat) : Prop := j < 32 ∧ (j = 0 → p.bit0Compared = true)
    let half (k : Nat) : Half :=
      if k = 0 then w.r1.extractLsb' 0 16 else if k = 1 then w.r1.extractLsb' 16 16
      else if k = 2 then w.r2.extractLsb' 0 16 else w.r2.extractLsb' 16 16
    (filterMatches p true false w 0 f = true ↔
      ∀ j, compared j → w.r2.getLsbD j = true → f.w32.getLsbD j = w.r1.getLsbD j) ∧
    (∀ k, k < 2 → (filterMatches p true true w k f = true ↔
      ∀ j, compared j → f.w32.getLsbD j = (if k = 0 then w.r1 else w.r2).getLsbD j)) ∧
    (∀ k, k < 2 → (filterMatches p false false w k f = true ↔
      ∀ j, j < 16 → (if k = 0 then w.r1 else w.r2).getLsbD (16 + j) = true →
        f.w16.getLsbD j = (if k = 0 then w.r1 else w.r2).getLsbD j)) ∧
    (∀ k, k < 4 → (filterMatches p false true w k f = true ↔ f.w16 = half k)) ∧
    (∀ k, (1 ≤ k → filterMatches p true false w k f = false) ∧ (2 ≤ k → filterMatches p true true w k f = false) ∧
      (2 ≤ k → filterMatches p false false w k f = false) ∧ (4 ≤ k → filterMatches p false true w k f = false))

/-- R306: filter numbers. A filter's number counts the filters of the lower banks routed to the same FIFO, from the
start of the numbering its bank belongs to, active or not. -/
def Obligations.FilterNumbersCountTheFifosFilters : Prop :=
  ∀ (p : Params) (fl : FilterBlock) (b k : Nat),
    let count (b' : Nat) : Nat :=
      if fl.fsc.getLsbD b' then (if fl.fbm.getLsbD b' then 2 else 1) else (if fl.fbm.getLsbD b' then 4 else 2)
    let lo := if p.ninst = .two ∧ p.nbanks = .banks28 ∧ fl.can2sb.toNat ≤ b ∧ p.fmiRestart = true then fl.can2sb.toNat
      else 0
    fmi p fl b k =
      k + ∑ b' ∈ (Finset.range b).filter (fun b' => lo ≤ b' ∧ fl.ffa.getLsbD b' = fl.ffa.getLsbD b), count b'

/-- R311, R313: `accept` holds exactly the FIFO and number of the candidates whose key (rank, number) no candidate
undercuts; bank b serves instance 0 below CAN2SB and instance 1 from it on, with two instances and 28 banks. -/
def Obligations.AcceptanceTakesTheLeastKey : Prop :=
  (∀ (p : Params) (fl : FilterBlock) (i : Inst) (f : Frame) (x : FifoIx) (n : Nat),
    (x, n) ∈ accept p fl i f ↔ ∃ (b : Fin 28) (k : Nat), isCandidate p fl i f b k ∧
      x = (if fl.ffa.getLsbD b.val then .f1 else .f0) ∧ n = fmi p fl b.val k ∧
      ∀ (b' : Fin 28) (k' : Nat), isCandidate p fl i f b' k' →
        fl.rank b.val < fl.rank b'.val ∨ (fl.rank b.val = fl.rank b'.val ∧ n ≤ fmi p fl b'.val k')) ∧
  (∀ (p : Params) (fl : FilterBlock) (b : Nat) (i : Inst), serves p fl b i = true ↔
    i = if p.ninst = .two ∧ p.nbanks = .banks28 ∧ fl.can2sb.toNat ≤ b then .can2 else .can1) ∧
  (∀ (fl : FilterBlock) (b : Nat), fl.rank b =
    (if fl.fsc.getLsbD b then 0 else 2) + (if fl.fbm.getLsbD b then 0 else 1))

/-! ## Frames and identifier words (30_encoding.md) -/

/-- R156 to R159, R358: the identifier words hold the identifier, IDE and RTR at their places and decode back; a
mailbox that holds a frame's words holds the frame. -/
def Obligations.IdentifierWordsDecodeBack : Prop :=
  ∀ (f : Frame) (m : Mailbox),
    (∀ id, f.id = .standard id → f.w32.extractLsb' 21 11 = id ∧ f.w32.getLsbD 2 = false ∧ f.w32.extractLsb' 3 18 = 0) ∧
    (∀ id, f.id = .extended id → f.w32.extractLsb' 3 29 = id ∧ f.w32.getLsbD 2 = true) ∧
    f.w32.getLsbD 1 = f.rtr ∧ f.w32.getLsbD 0 = false ∧
    (f.w16.extractLsb' 5 11 = f.w32.extractLsb' 21 11 ∧ f.w16.getLsbD 4 = f.rtr ∧
      f.w16.getLsbD 3 = f.w32.getLsbD 2 ∧ f.w16.extractLsb' 0 3 = f.w32.extractLsb' 18 3) ∧
    ({ m with tir := f.w32.extractLsb' 1 31, dlc := f.dlc, dlo := packLow f.data, dhi := packHigh f.data } :
      Mailbox).frame = f ∧
    (∀ k : Fin 4, (packLow f.data).extractLsb' (8 * k.val) 8 = f.data[k.val] ∧
      (packHigh f.data).extractLsb' (8 * k.val) 8 = f.data[4 + k.val])

/-! ## Reception (44_receive.md) -/

/-- R404, R305, R312, R408: a frame from the bus. The step is taken only in Normal mode, not in reset, not bus-off, not
in loopback. Without an error LEC is cleared; with the latch held or no winner the frame is lost; else it enters the
FIFO of one of the winners, and each winner can be the one. -/
def Obligations.ReceiveStepQueuesTheWinnersEntry : Prop :=
  ∀ (s : State) (i : Inst) (f : Frame) (d : RxDraws), hasInst s.params i = true →
    let c := s.can i
    let cleared : Controller := { c with esr := { c.esr with lec := 0 } }
    let takes (d : RxDraws) (x : FifoIx) (n : Nat) : Prop := ∃ e : Entry, entryShows e f n d ∧
      agentStep (.rxFrame i f d) s = s.setCan i (cleared.setFifo x ((c.fifo x).enqueue c.mcr.rflm e))
    (c.resetAsserted = true ∨ c.mode ≠ .normal ∨ c.esr.boff = true ∨ c.btr.lbkm = true →
      agentStep (.rxFrame i f d) s = s) ∧
    (c.resetAsserted = false → c.mode = .normal → c.esr.boff = false → c.btr.lbkm = false →
      (s.filter.finit = true ∨ accept s.params s.filter i f = [] →
        agentStep (.rxFrame i f d) s = s.setCan i cleared) ∧
      (s.filter.finit = false → accept s.params s.filter i f ≠ [] →
        (∃ x n, (x, n) ∈ accept s.params s.filter i f ∧ takes d x n) ∧
        (∀ x n, (x, n) ∈ accept s.params s.filter i f → ∃ pick, takes { d with pick := pick } x n)))

/-- R405: a FIFO takes three entries, FULL being set by the third; an overrun sets FOVR, and overwrites the newest
entry or, locked, drops the new one; a FIFO never holds more than three. -/
def Obligations.EnqueueKeepsDepthThree : Prop :=
  ∀ (f : Fifo) (locked : Bool) (e : Entry),
    (f.q.length < 3 → f.enqueue locked e =
      { q := f.q ++ [e], full := f.full || decide (f.q.length = 2), fovr := f.fovr }) ∧
    (3 ≤ f.q.length → locked = false → f.enqueue locked e =
      { q := f.q.take 2 ++ [e], full := f.full, fovr := true }) ∧
    (3 ≤ f.q.length → locked = true → f.enqueue locked e = { q := f.q, full := f.full, fovr := true }) ∧
    (f.q.length ≤ 3 → (f.enqueue locked e).q.length ≤ 3)

/-- R400, R401, R38: RFxR of a FIFO within its depth reads its count and flags, RFOM reading 0; a write clears FULL and
FOVR where it has a 1 and releases the head entry when bit 5 is 1. Constructors rdRF0R, rdRF1R, wrRF0R, wrRF1R. -/
def Obligations.FifoStatusReadAndWrite : Prop :=
  ∀ (s : State) (i : Inst) (x : FifoIx) (v : Word), accessible s i (.rfr x) = true →
    let f := (s.can i).fifo x
    (f.q.length ≤ 3 → ∃ w : BusWord,
      exec (Instr.rd (.rfr x) i) s = .next ((s.takeDraws 1).returning (.word w)) ∧
      (w.word.extractLsb' 0 2).toNat = f.q.length ∧ w.word.getLsbD 3 = f.full ∧ w.word.getLsbD 4 = f.fovr ∧
      w.word.getLsbD 5 = false ∧ w.free = 0xFFFFFFC4) ∧
    exec (Instr.wr (.rfr x) i v) s = .next ((s.setCan i ((s.can i).setFifo x
      { q := if v.getLsbD 5 then f.q.tail else f.q, full := f.full && !v.getLsbD 3,
        fovr := f.fovr && !v.getLsbD 4 })).returning .none)

/-- R402, R45 to R47: the output mailbox of FIFO x shows its oldest entry; of an empty FIFO every bit is a draw.
Constructors rdRI0R to rdRDH0R and rdRI1R to rdRDH1R. -/
def Obligations.OutputMailboxShowsTheHead : Prop :=
  ∀ (s : State) (i : Inst) (x : FifoIx), accessible s i (.rir x) = true →
    let reads (r : Reg) (P : BusWord → Prop) : Prop :=
      ∃ w : BusWord, exec (Instr.rd r i) s = .next ((s.takeDraws 1).returning (.word w)) ∧ P w
    (((s.can i).fifo x).q = [] → ∀ r ∈ [Reg.rir x, .rdtr x, .rdlr x, .rdhr x], reads r (fun w => w.free = 0xFFFFFFFF)) ∧
    (∀ (e : Entry) (rest : List Entry), ((s.can i).fifo x).q = e :: rest →
      reads (.rir x) (fun w => w.word.extractLsb' 1 31 = e.rir ∧ w.free = 0x00000001) ∧
      reads (.rdtr x) (fun w => w.word.extractLsb' 0 4 = e.dlc ∧ w.word.extractLsb' 8 8 = e.fmi ∧
        w.word.extractLsb' 16 16 = e.time ∧ w.free = 0x000000F0) ∧
      reads (.rdlr x) (fun w => w.word = e.dlo ∧ w.free = 0) ∧ reads (.rdhr x) (fun w => w.word = e.dhi ∧ w.free = 0))

/-- R403, R128: a write to an output mailbox register completes and is ignored. Constructors wrRI0R to wrRDH0R and
wrRI1R to wrRDH1R. -/
def Obligations.OutputMailboxWritesAreIgnored : Prop :=
  ∀ (s : State) (i : Inst) (x : FifoIx) (v : Word), accessible s i (.rir x) = true →
    ∀ r ∈ [Reg.rir x, .rdtr x, .rdlr x, .rdhr x], exec (Instr.wr r i v) s = .next (s.returning .none)

/-- R406: `receive` completes. Of a FIFO with an entry it returns the oldest one, whatever agents do between its reads;
with `autoRelease` and no agent steps the entry is released and FULL and FOVR are cleared (R407, R510). Any other FIFO
number faults before any access. -/
def Obligations.ReceiveDecodesTheHeadEntry : Prop :=
  ∀ (s : State) (i : Inst) (autoRelease : Bool),
    (∀ n, 2 ≤ n → exec (.opReceive i n autoRelease) s
      = .fault (.badFifoId (.operation (.opReceive i n autoRelease)))) ∧
    (∀ x : FifoIx, accessible s i (.rir x) = true →
      (∃ t f, exec (.opReceive i x.toNat autoRelease) s = .next t ∧ t.result = .frame f ∧ t.params = s.params ∧
        t.filter = s.filter ∧ t.program = s.program ∧ t.draws = s.draws + 4 + (if autoRelease then 1 else 0)) ∧
      (∀ (e : Entry) (rest : List Entry), ((s.can i).fifo x).q = e :: rest →
        let f : Received :=
          { id := if e.rir.getLsbD 1 then .extended (e.rir.extractLsb' 2 29) else .standard (e.rir.extractLsb' 20 11)
            isRemoteRequest := e.rir.getLsbD 0
            filterMatchIndex := e.fmi
            length := e.dlc
            data := unpack8 e.dlo e.dhi }
        (∃ t, exec (.opReceive i x.toNat autoRelease) s = .next t ∧ t.result = .frame f) ∧
        (s.gaps = [] → autoRelease = false →
          exec (.opReceive i x.toNat false) s = .next ((s.takeDraws 4).returning (.frame f))) ∧
        (s.gaps = [] → autoRelease = true → rest.length ≤ 2 →
          exec (.opReceive i x.toNat true) s = .next (((s.setCan i ((s.can i).setFifo x
            { q := rest, full := false, fovr := false })).takeDraws 5).returning (.frame f)))))

/-- R407, R510: `releaseFifo` completes: it releases the head entry found at its write, and clears FULL and FOVR where
they read 1. Any other FIFO number faults before any access. -/
def Obligations.ReleaseFifoDropsTheHead : Prop :=
  ∀ (s : State) (i : Inst),
    (∀ n, 2 ≤ n → exec (.opReleaseFifo i n) s = .fault (.badFifoId (.operation (.opReleaseFifo i n)))) ∧
    (∀ x : FifoIx, accessible s i (.rfr x) = true → ((s.can i).fifo x).q.length ≤ 3 →
      let m := afterGap (s.takeDraws 1)
      let g := (m.can i).fifo x
      exec (.opReleaseFifo i x.toNat) s = .next ((m.setCan i ((m.can i).setFifo x
        { q := g.q.tail, full := g.full && !((s.can i).fifo x).full,
          fovr := g.fovr && !((s.can i).fifo x).fovr })).returning .none))

/-! ## Transmission (43_transmit.md) -/

/-- R350, R351, R37: what TSR reads for each mailbox, CODE, LOWx and the reserved bits being draws, and what a write
clears and sets for each. -/
def Obligations.TsrReadAndWrite : Prop :=
  ∀ (s : State) (i : Inst) (v : Word), accessible s i .tsr = true →
    let c := s.can i
    let written (x : Nat) (m : Mailbox) : Mailbox := { m with
      rqcp := m.rqcp && !v.getLsbD (8 * x)
      txok := m.txok && !v.getLsbD (8 * x) && !v.getLsbD (8 * x + 1)
      alst := m.alst && !v.getLsbD (8 * x) && !v.getLsbD (8 * x + 2)
      terr := m.terr && !v.getLsbD (8 * x) && !v.getLsbD (8 * x + 3)
      abrq := m.abrq || (v.getLsbD (8 * x + 7) && m.pending) }
    (∃ w : BusWord, exec (.rdTSR i) s = .next ((s.takeDraws 1).returning (.word w)) ∧ w.free = 0xE3707070 ∧
      ∀ x : MbIx, w.word.getLsbD (8 * x.toNat) = (c.mb x).rqcp ∧ w.word.getLsbD (8 * x.toNat + 1) = (c.mb x).txok ∧
        w.word.getLsbD (8 * x.toNat + 2) = (c.mb x).alst ∧ w.word.getLsbD (8 * x.toNat + 3) = (c.mb x).terr ∧
        w.word.getLsbD (8 * x.toNat + 7) = (c.mb x).abrq ∧ w.word.getLsbD (26 + x.toNat) = !(c.mb x).pending) ∧
    exec (.wrTSR i v) s = .next ((s.setCan i { c with
      mb0 := written 0 c.mb0, mb1 := written 1 c.mb1, mb2 := written 2 c.mb2 }).returning .none)

/-- R352, R354, R355: what the registers of mailbox x read, pending or not. Constructors rdTI0R to rdTDH2R. -/
def Obligations.MailboxRegistersRead : Prop :=
  ∀ (s : State) (i : Inst) (x : MbIx), accessible s i (.tir x) = true →
    let m := (s.can i).mb x
    let reads (r : Reg) (P : BusWord → Prop) : Prop :=
      ∃ w : BusWord, exec (Instr.rd r i) s = .next ((s.takeDraws 1).returning (.word w)) ∧ P w
    reads (.tir x) (fun w => w.word.extractLsb' 1 31 = m.tir ∧ w.word.getLsbD 0 = m.pending ∧ w.free = 0) ∧
    reads (.tdtr x) (fun w => w.word.extractLsb' 0 4 = m.dlc ∧ w.word.getLsbD 8 = m.tgt ∧
      w.word.extractLsb' 16 16 = m.time ∧ w.free = 0x0000FEF0) ∧
    reads (.tdlr x) (fun w => w.word = m.dlo ∧ w.free = 0) ∧ reads (.tdhr x) (fun w => w.word = m.dhi ∧ w.free = 0)

/-- R353, R354, R355: the registers of an empty mailbox are written, TXRQ handing it to the transmitter with its status
cleared; a write to a pending mailbox faults. Constructors wrTI0R to wrTDH2R. -/
def Obligations.MailboxRegistersWrite : Prop :=
  ∀ (s : State) (i : Inst) (x : MbIx) (v : Word), accessible s i (.tir x) = true →
    let m := (s.can i).mb x
    let leaves (r : Reg) (m' : Mailbox) : Prop :=
      exec (Instr.wr r i v) s = .next ((s.setCan i ((s.can i).setMb x m')).returning .none)
    (m.pending = false →
      (v.getLsbD 0 = false → leaves (.tir x) { m with tir := v.extractLsb' 1 31 }) ∧
      (v.getLsbD 0 = true → leaves (.tir x) { m with
        tir := v.extractLsb' 1 31, pending := true, rqcp := false, txok := false, alst := false, terr := false }) ∧
      leaves (.tdtr x) { m with dlc := v.extractLsb' 0 4, tgt := v.getLsbD 8, time := v.extractLsb' 16 16 } ∧
      leaves (.tdlr x) { m with dlo := v } ∧ leaves (.tdhr x) { m with dhi := v }) ∧
    (m.pending = true → ∀ r ∈ [Reg.tir x, .tdtr x, .tdlr x, .tdhr x],
      exec (Instr.wr r i v) s = .fault (.mailboxWriteWhilePending (.access (.write i r v))))

/-- R359, R363, R360: the lowest-indexed empty mailbox of one TSR read; `availableMailbox` is true exactly when there is
one; with none empty `transmit` completes with -1 after its one read and writes nothing. -/
def Obligations.MailboxScanIsFirstFit : Prop :=
  ∀ (s : State) (i : Inst), accessible s i .tsr = true →
    exec (.opGetEmptyMailbox i) s = .next ((s.takeDraws 1).returning (.mailbox (s.can i).lowestEmpty)) ∧
    exec (.opAvailableMailbox i) s
      = .next ((s.takeDraws 1).returning (.flag (decide ((s.can i).lowestEmpty ≠ none)))) ∧
    ((∀ x : MbIx, ((s.can i).mb x).pending = true) →
      ∀ (id : Word) (ext rtr : Bool) (length : Nat) (data : List Byte),
        exec (.opTransmit i id ext rtr length data) s = .next ((s.takeDraws 1).returning (.int (-1))))

/-- R360: `transmit` completes through the lowest-indexed empty mailbox and returns its number. That mailbox is pending
with its status cleared, holds the identifier word, the DLC `length mod 16` and the caller's bytes, whatever agents do
between the accesses; nothing else changes but by agent steps. -/
def Obligations.TransmitFillsTheFirstEmptyMailbox : Prop :=
  ∀ (s : State) (i : Inst) (x : MbIx) (id : Word) (ext rtr : Bool) (length : Nat) (data : List Byte),
    accessible s i .tsr = true → (s.can i).lowestEmpty = some x → min length 8 ≤ data.length →
    let m := (s.can i).mb x
    let word : Word := (if ext then (id <<< 3) ||| 4#32 else id <<< 21) ||| (if rtr then 2#32 else 0#32)
    ∃ t dlo dhi, exec (.opTransmit i id ext rtr length data) s = .next t ∧ t.result = .int x.toNat ∧
      (t.can i).mb x = { m with pending := true, rqcp := false, txok := false, alst := false, terr := false,
                                tir := word.extractLsb' 1 31, dlc := BitVec.ofNat 4 length, dlo := dlo, dhi := dhi } ∧
      (∀ k : Fin 8, k.val < min length 8 → some (unpack8 dlo dhi)[k] = data[k.val]?) ∧
      t.params = s.params ∧ t.filter = s.filter ∧ t.program = s.program ∧
      t.draws = s.draws + 5 + (if rtr then 1 else 0) ∧
      (s.gaps = [] → t = ((s.setCan i ((s.can i).setMb x ((t.can i).mb x))).takeDraws
        (5 + (if rtr then 1 else 0))).returning (.int x.toNat))

/-- R356, R361: a transmission attempt. It is taken only in Normal mode, not in reset, not bus-off, on a pending
mailbox, not in silent mode without loopback, and loses no arbitration in loopback. -/
def Obligations.TransmissionAttemptOutcomes : Prop :=
  ∀ (s : State) (i : Inst) (x : MbIx) (stamp : Half) (b6 b7 : Byte), hasInst s.params i = true →
    let c := s.can i
    let m := c.mb x
    let f : Frame := if c.mcr.ttcm = true ∧ m.tgt = true ∧ m.dlc = 8 then
      { m.frame with data := (m.frame.data.set 6 b6).set 7 b7 } else m.frame
    let attempt (o : TxOutcome) : State := agentStep (.txAttempt i x stamp b6 b7 o) s
    let enabled := c.resetAsserted = false ∧ c.mode = .normal ∧ c.esr.boff = false ∧ m.pending = true ∧
      ¬(c.btr.silm = true ∧ c.btr.lbkm = false)
    (∀ o, ¬enabled → attempt o = s) ∧
    (enabled →
      (∀ ka kt rx, attempt (.success ka kt rx) =
        let c' := if c.btr.lbkm then c.offer s.params s.filter i f rx else c
        let sent := (c'.setMb x { m with
          time := stamp, pending := false, abrq := false, rqcp := true, txok := true,
          alst := m.alst && ka, terr := m.terr && kt })
        { s.setCan i { sent with esr := { c.esr with lec := 0 } } with
          busOut := s.busOut ++ (if c.btr.silm then [] else [(i, f)]) }) ∧
      attempt .arbitrationLost = (if c.btr.lbkm then s else s.setCan i (c.setMb x { m with
        time := stamp, alst := true, txok := false, pending := !c.mcr.nart, abrq := m.abrq && !c.mcr.nart,
        rqcp := m.rqcp || c.mcr.nart })) ∧
      (∀ code d, attempt (.error code d) = s.setCan i ((c.setMb x { m with
        time := stamp, terr := true, txok := false, pending := !c.mcr.nart, abrq := m.abrq && !c.mcr.nart,
        rqcp := m.rqcp || c.mcr.nart }).errorEvent (some code) d)))

/-- R357: an abort completes a pending mailbox with an abort request, in every mode, and sends nothing. -/
def Obligations.AbortEmptiesThePendingMailbox : Prop :=
  ∀ (s : State) (i : Inst) (x : MbIx), hasInst s.params i = true →
    let c := s.can i
    let m := c.mb x
    (c.resetAsserted = false ∧ m.pending = true ∧ m.abrq = true →
      agentStep (.txAbort i x) s = s.setCan i (c.setMb x
        { m with pending := false, abrq := false, rqcp := true, txok := false })) ∧
    (¬(c.resetAsserted = false ∧ m.pending = true ∧ m.abrq = true) → agentStep (.txAbort i x) s = s)

/-- R136: frames leave the block only by a successful transmission attempt, which appends one; no instruction sends one;
the log only grows. -/
def Obligations.FramesLeaveOnlyByTransmission : Prop :=
  (∀ (ins : Instr) (s t : State), exec ins s = .next t → s.gaps = [] → t.busOut = s.busOut) ∧
  (∀ (a : AgentStep) (s : State), (agentStep a s).busOut = s.busOut ∨
    ∃ i x stamp b6 b7 ka kt rx f, a = .txAttempt i x stamp b6 b7 (.success ka kt rx) ∧
      f.id = ((s.can i).mb x).frame.id ∧ (agentStep a s).busOut = s.busOut ++ [(i, f)]) ∧
  (∀ s t : State, step s = .next t → s.busOut <+: t.busOut)

/-- R462, R305: an agent's step changes only its own instance and the log; it never writes the filter block or another
instance, nor the parameters, the host's program, the operation it is in or its
result. -/
def Obligations.AgentsActOnTheirOwnInstance : Prop :=
  ∀ (a : AgentStep) (s : State) (j : Inst), j ≠ a.inst →
    (agentStep a s).can j = s.can j ∧ (agentStep a s).filter = s.filter ∧ (agentStep a s).params = s.params ∧
      (agentStep a s).program = s.program ∧ (agentStep a s).gaps = s.gaps ∧ (agentStep a s).draws = s.draws ∧
      (agentStep a s).result = s.result ∧ (agentStep a s).call = s.call

/-! ## Errors, interrupts, power (60_exceptions.md) -/

/-- R452, R453, R39, R40: IER and ESR read and written; a write of ESR stores LEC only and raises no ERRI. -/
def Obligations.IerAndEsrReadAndWrite : Prop :=
  ∀ (s : State) (i : Inst) (v : Word), accessible s i .ier = true →
    let c := s.can i
    let places : List (Nat × Bool) := [(0, c.ier.tmeie), (1, c.ier.fmpie0), (2, c.ier.ffie0), (3, c.ier.fovie0),
      (4, c.ier.fmpie1), (5, c.ier.ffie1), (6, c.ier.fovie1), (8, c.ier.ewgie), (9, c.ier.epvie), (10, c.ier.bofie),
      (11, c.ier.lecie), (15, c.ier.errie), (16, c.ier.wkuie), (17, c.ier.slkie)]
    (∃ w : BusWord, exec (.rdIER i) s = .next ((s.takeDraws 1).returning (.word w)) ∧ w.free = 0xFFFC7080 ∧
      ∀ e ∈ places, w.word.getLsbD e.1 = e.2) ∧
    exec (.wrIER i v) s = .next ((s.setCan i { c with ier := {
      tmeie := v.getLsbD 0, fmpie0 := v.getLsbD 1, ffie0 := v.getLsbD 2, fovie0 := v.getLsbD 3,
      fmpie1 := v.getLsbD 4, ffie1 := v.getLsbD 5, fovie1 := v.getLsbD 6, ewgie := v.getLsbD 8,
      epvie := v.getLsbD 9, bofie := v.getLsbD 10, lecie := v.getLsbD 11, errie := v.getLsbD 15,
      wkuie := v.getLsbD 16, slkie := v.getLsbD 17 } }).returning .none) ∧
    (∃ w : BusWord, exec (.rdESR i) s = .next ((s.takeDraws 1).returning (.word w)) ∧ w.free = 0x0000FF88 ∧
      w.word.getLsbD 0 = c.esr.ewgf ∧ w.word.getLsbD 1 = c.esr.epvf ∧ w.word.getLsbD 2 = c.esr.boff ∧
      w.word.extractLsb' 4 3 = c.esr.lec ∧ w.word.extractLsb' 16 8 = c.esr.tec ∧
      w.word.extractLsb' 24 8 = c.esr.rxec) ∧
    exec (.wrESR i v) s
      = .next ((s.setCan i { c with esr := { c.esr with lec := v.extractLsb' 4 3 } }).returning .none)

/-- R454, R455: an error event in Normal mode takes the drawn counters, recomputes EWGF and EPVF, may enter bus-off and
never leaves it, sets LEC for a new code, and raises ERRI for an enabled flag that rose or an enabled code. -/
def Obligations.ErrorEventsSetTheStatus : Prop :=
  ∀ (s : State) (i : Inst) (code : Option ErrorCode) (d : ErrorDraws), hasInst s.params i = true →
    let c := s.can i
    let warning := decide (96 ≤ d.tec.toNat ∨ 96 ≤ d.rxec.toNat)
    let passive := decide (128 ≤ d.tec.toNat ∨ 128 ≤ d.rxec.toNat)
    let codeOf (l : ErrorCode) : BitVec 3 := match l with
      | .stuff => 1 | .form => 2 | .acknowledgment => 3 | .bitRecessive => 4 | .bitDominant => 5 | .crc => 6
    (c.resetAsserted = true ∨ c.mode ≠ .normal → agentStep (.errorEvent i code d) s = s) ∧
    (c.resetAsserted = false → c.mode = .normal → agentStep (.errorEvent i code d) s = s.setCan i { c with
      esr := { lec := (match code with | none => c.esr.lec | some l => codeOf l), tec := d.tec, rxec := d.rxec,
               boff := c.esr.boff || d.boff, ewgf := warning, epvf := passive },
      erri := c.erri || (warning && !c.esr.ewgf && c.ier.ewgie) || (passive && !c.esr.epvf && c.ier.epvie)
        || ((c.esr.boff || d.boff) && !c.esr.boff && c.ier.bofie) || (code.isSome && c.ier.lecie) })

/-- R464, R465: a wake-up in Sleep sets WKUI and, with AWUM, clears SLEEP; bus-off recovery, in Normal mode with ABOM or
after Init was entered bus-off, clears BOFF, the counters and their flags. Elsewhere neither step is taken. -/
def Obligations.WakeUpAndBusOffRecovery : Prop :=
  ∀ (s : State) (i : Inst), hasInst s.params i = true →
    let c := s.can i
    let recovers := c.resetAsserted = false ∧ c.esr.boff = true ∧ c.mode = .normal ∧
      (c.mcr.abom = true ∨ c.boffInitSeen = true)
    (c.resetAsserted = false → c.mode = .sleep → agentStep (.wakeUp i) s = s.setCan i { c with
      wkui := true, mcr := { c.mcr with sleep := c.mcr.sleep && !c.mcr.awum } }) ∧
    (c.resetAsserted = true ∨ c.mode ≠ .sleep → agentStep (.wakeUp i) s = s) ∧
    (recovers → agentStep (.busOffRecovery i) s = s.setCan i { c with
      esr := { c.esr with boff := false, tec := 0, rxec := 0, ewgf := false, epvf := false },
      boffInitSeen := false }) ∧
    (¬recovers → agentStep (.busOffRecovery i) s = s)

/-- R456: the four interrupt lines as functions of the state. -/
def Obligations.InterruptLinesFollowTheirSources : Prop :=
  ∀ c : Controller,
    (c.lineTx = true ↔ c.ier.tmeie = true ∧ ∃ x, (c.mb x).rqcp = true) ∧
    (c.lineRx0 = true ↔ (c.ier.fmpie0 = true ∧ (c.fifo .f0).q.length ≠ 0) ∨
      (c.ier.ffie0 = true ∧ (c.fifo .f0).full = true) ∨ (c.ier.fovie0 = true ∧ (c.fifo .f0).fovr = true)) ∧
    (c.lineRx1 = true ↔ (c.ier.fmpie1 = true ∧ (c.fifo .f1).q.length ≠ 0) ∨
      (c.ier.ffie1 = true ∧ (c.fifo .f1).full = true) ∨ (c.ier.fovie1 = true ∧ (c.fifo .f1).fovr = true)) ∧
    (c.lineSce = true ↔ (c.ier.errie = true ∧ c.erri = true) ∨ (c.ier.wkuie = true ∧ c.wkui = true) ∨
      (c.ier.slkie = true ∧ c.slaki = true))

/-! ## Good states -/

/-- Every step keeps a good state good and the parameters as they are: the mailbox flags, the FIFO depth, the error
flags, SLAKI and the recovery request, the bits of banks that do not exist, and CAN2SB. -/
def Obligations.StepKeepsGoodStates : Prop :=
  ∀ s t : State, s.wf = true → step s = .next t → t.wf = true ∧ t.params = s.params

/-- The state after reset is good. -/
def Obligations.ResetStateIsGood : Prop := State.reset.wf = true
end

