-- ==== Sys2Proof/Laws/State.lean ====
section
/-! SUPPORT. The small lemmas of the state: what each field reads after each update, so that no proof unfolds a record
update or an accessor. -/

namespace Sys2Proof.Machine

/-! ## Instances of the state -/

@[simp] theorem State.can_setCan_same (s : State) (i : Inst) (c : Controller) : (s.setCan i c).can i = c := by
  cases i <;> rfl

theorem State.can_setCan_other (s : State) (i j : Inst) (c : Controller) (h : j ≠ i) :
    (s.setCan i c).can j = s.can j := by
  cases i <;> cases j <;> first | rfl | exact absurd rfl h

@[simp] theorem State.setCan_can_self (s : State) (i : Inst) : s.setCan i (s.can i) = s := by
  cases i <;> rfl

@[simp] theorem State.setCan_setCan (s : State) (i : Inst) (c d : Controller) :
    (s.setCan i c).setCan i d = s.setCan i d := by
  cases i <;> rfl

@[simp] theorem State.setCan_params (s : State) (i : Inst) (c : Controller) : (s.setCan i c).params = s.params := by
  cases i <;> rfl

@[simp] theorem State.setCan_filter (s : State) (i : Inst) (c : Controller) : (s.setCan i c).filter = s.filter := by
  cases i <;> rfl

@[simp] theorem State.setCan_busOut (s : State) (i : Inst) (c : Controller) : (s.setCan i c).busOut = s.busOut := by
  cases i <;> rfl

@[simp] theorem State.setCan_program (s : State) (i : Inst) (c : Controller) : (s.setCan i c).program = s.program := by
  cases i <;> rfl

@[simp] theorem State.setCan_call (s : State) (i : Inst) (c : Controller) : (s.setCan i c).call = s.call := by
  cases i <;> rfl

@[simp] theorem State.setCan_gaps (s : State) (i : Inst) (c : Controller) : (s.setCan i c).gaps = s.gaps := by
  cases i <;> rfl

@[simp] theorem State.setCan_draws (s : State) (i : Inst) (c : Controller) : (s.setCan i c).draws = s.draws := by
  cases i <;> rfl

@[simp] theorem State.setCan_result (s : State) (i : Inst) (c : Controller) : (s.setCan i c).result = s.result := by
  cases i <;> rfl

@[simp] theorem State.can_with_filter (s : State) (v : FilterBlock) (i : Inst) : State.can { s with filter := v } i = s.can i := by
  cases i <;> rfl

@[simp] theorem State.setCan_with_filter (s : State) (v : FilterBlock) (i : Inst) (c : Controller) :
    State.setCan { s with filter := v } i c = { s.setCan i c with filter := v } := by
  cases i <;> rfl

@[simp] theorem State.can_with_busOut (s : State) (v : List (Inst × Frame)) (i : Inst) : State.can { s with busOut := v } i = s.can i := by
  cases i <;> rfl

@[simp] theorem State.setCan_with_busOut (s : State) (v : List (Inst × Frame)) (i : Inst) (c : Controller) :
    State.setCan { s with busOut := v } i c = { s.setCan i c with busOut := v } := by
  cases i <;> rfl

@[simp] theorem State.can_with_program (s : State) (v : List HostRequest) (i : Inst) : State.can { s with program := v } i = s.can i := by
  cases i <;> rfl

@[simp] theorem State.can_with_call (s : State) (v : Option Call) (i : Inst) : State.can { s with call := v } i = s.can i := by
  cases i <;> rfl

@[simp] theorem State.setCan_with_program (s : State) (v : List HostRequest) (i : Inst) (c : Controller) :
    State.setCan { s with program := v } i c = { s.setCan i c with program := v } := by
  cases i <;> rfl

@[simp] theorem State.setCan_with_call (s : State) (v : Option Call) (i : Inst) (c : Controller) :
    State.setCan { s with call := v } i c = { s.setCan i c with call := v } := by
  cases i <;> rfl

@[simp] theorem State.can_with_gaps (s : State) (v : List (List AgentStep)) (i : Inst) : State.can { s with gaps := v } i = s.can i := by
  cases i <;> rfl

@[simp] theorem State.setCan_with_gaps (s : State) (v : List (List AgentStep)) (i : Inst) (c : Controller) :
    State.setCan { s with gaps := v } i c = { s.setCan i c with gaps := v } := by
  cases i <;> rfl

@[simp] theorem State.can_with_draws (s : State) (v : Nat) (i : Inst) : State.can { s with draws := v } i = s.can i := by
  cases i <;> rfl

@[simp] theorem State.setCan_with_draws (s : State) (v : Nat) (i : Inst) (c : Controller) :
    State.setCan { s with draws := v } i c = { s.setCan i c with draws := v } := by
  cases i <;> rfl

@[simp] theorem State.can_with_result (s : State) (v : Result) (i : Inst) : State.can { s with result := v } i = s.can i := by
  cases i <;> rfl

@[simp] theorem State.setCan_with_result (s : State) (v : Result) (i : Inst) (c : Controller) :
    State.setCan { s with result := v } i c = { s.setCan i c with result := v } := by
  cases i <;> rfl

@[simp] theorem State.send_params (s : State) (l : List (Inst × Frame)) : (s.send l).params = s.params := rfl

@[simp] theorem State.send_filter (s : State) (l : List (Inst × Frame)) : (s.send l).filter = s.filter := rfl

@[simp] theorem State.send_busOut (s : State) (l : List (Inst × Frame)) : (s.send l).busOut = s.busOut ++ l := rfl

@[simp] theorem State.send_program (s : State) (l : List (Inst × Frame)) : (s.send l).program = s.program := rfl

@[simp] theorem State.send_call (s : State) (l : List (Inst × Frame)) : (s.send l).call = s.call := rfl

@[simp] theorem State.send_gaps (s : State) (l : List (Inst × Frame)) : (s.send l).gaps = s.gaps := rfl

@[simp] theorem State.send_draws (s : State) (l : List (Inst × Frame)) : (s.send l).draws = s.draws := rfl

@[simp] theorem State.send_result (s : State) (l : List (Inst × Frame)) : (s.send l).result = s.result := rfl

@[simp] theorem State.can_send (s : State) (l : List (Inst × Frame)) (i : Inst) : (s.send l).can i = s.can i := by
  cases i <;> rfl

@[simp] theorem State.setCan_send (s : State) (l : List (Inst × Frame)) (i : Inst) (c : Controller) :
    (s.send l).setCan i c = (s.setCan i c).send l := by
  cases i <;> rfl

@[simp] theorem State.takeDraws_params (s : State) (n : Nat) : (s.takeDraws n).params = s.params := rfl

@[simp] theorem State.takeDraws_filter (s : State) (n : Nat) : (s.takeDraws n).filter = s.filter := rfl

@[simp] theorem State.takeDraws_busOut (s : State) (n : Nat) : (s.takeDraws n).busOut = s.busOut := rfl

@[simp] theorem State.takeDraws_program (s : State) (n : Nat) : (s.takeDraws n).program = s.program := rfl

@[simp] theorem State.takeDraws_call (s : State) (n : Nat) : (s.takeDraws n).call = s.call := rfl

@[simp] theorem State.takeDraws_gaps (s : State) (n : Nat) : (s.takeDraws n).gaps = s.gaps := rfl

@[simp] theorem State.takeDraws_draws (s : State) (n : Nat) : (s.takeDraws n).draws = s.draws + n := rfl

@[simp] theorem State.takeDraws_result (s : State) (n : Nat) : (s.takeDraws n).result = s.result := rfl

@[simp] theorem State.can_takeDraws (s : State) (n : Nat) (i : Inst) : (s.takeDraws n).can i = s.can i := by
  cases i <;> rfl

@[simp] theorem State.setCan_takeDraws (s : State) (n : Nat) (i : Inst) (c : Controller) :
    (s.takeDraws n).setCan i c = (s.setCan i c).takeDraws n := by
  cases i <;> rfl

@[simp] theorem State.returning_params (s : State) (r : Result) : (s.returning r).params = s.params := rfl

@[simp] theorem State.returning_filter (s : State) (r : Result) : (s.returning r).filter = s.filter := rfl

@[simp] theorem State.returning_busOut (s : State) (r : Result) : (s.returning r).busOut = s.busOut := rfl

@[simp] theorem State.returning_program (s : State) (r : Result) : (s.returning r).program = s.program := rfl

@[simp] theorem State.returning_call (s : State) (r : Result) : (s.returning r).call = s.call := rfl

@[simp] theorem State.returning_gaps (s : State) (r : Result) : (s.returning r).gaps = s.gaps := rfl

@[simp] theorem State.returning_draws (s : State) (r : Result) : (s.returning r).draws = s.draws := rfl

@[simp] theorem State.returning_result (s : State) (r : Result) : (s.returning r).result = r := rfl

@[simp] theorem State.can_returning (s : State) (r : Result) (i : Inst) : (s.returning r).can i = s.can i := by
  cases i <;> rfl

@[simp] theorem State.setCan_returning (s : State) (r : Result) (i : Inst) (c : Controller) :
    (s.returning r).setCan i c = (s.setCan i c).returning r := by
  cases i <;> rfl

@[simp] theorem State.setFilter_params (s : State) (fl : FilterBlock) : (s.setFilter fl).params = s.params := rfl

@[simp] theorem State.setFilter_filter (s : State) (fl : FilterBlock) : (s.setFilter fl).filter = fl := rfl

@[simp] theorem State.setFilter_busOut (s : State) (fl : FilterBlock) : (s.setFilter fl).busOut = s.busOut := rfl

@[simp] theorem State.setFilter_program (s : State) (fl : FilterBlock) : (s.setFilter fl).program = s.program := rfl

@[simp] theorem State.setFilter_call (s : State) (fl : FilterBlock) : (s.setFilter fl).call = s.call := rfl

@[simp] theorem State.setFilter_gaps (s : State) (fl : FilterBlock) : (s.setFilter fl).gaps = s.gaps := rfl

@[simp] theorem State.setFilter_draws (s : State) (fl : FilterBlock) : (s.setFilter fl).draws = s.draws := rfl

@[simp] theorem State.setFilter_result (s : State) (fl : FilterBlock) : (s.setFilter fl).result = s.result := rfl

@[simp] theorem State.can_setFilter (s : State) (fl : FilterBlock) (i : Inst) : (s.setFilter fl).can i = s.can i := by
  cases i <;> rfl

@[simp] theorem State.setCan_setFilter (s : State) (fl : FilterBlock) (i : Inst) (c : Controller) :
    (s.setFilter fl).setCan i c = (s.setCan i c).setFilter fl := by
  cases i <;> rfl

@[simp] theorem State.send_nil (s : State) : s.send [] = s := by
  simp [State.send]

@[simp] theorem State.takeDraws_takeDraws (s : State) (m n : Nat) :
    (s.takeDraws m).takeDraws n = s.takeDraws (m + n) := by
  simp [State.takeDraws, Nat.add_assoc]

@[simp] theorem State.takeDraws_zero (s : State) : s.takeDraws 0 = s := rfl

@[simp] theorem State.returning_returning (s : State) (r t : Result) : (s.returning r).returning t = s.returning t := rfl

@[simp] theorem State.takeDraws_returning (s : State) (r : Result) (n : Nat) :
    (s.returning r).takeDraws n = (s.takeDraws n).returning r := rfl

@[simp] theorem State.setFilter_setFilter (s : State) (fl fl' : FilterBlock) :
    (s.setFilter fl).setFilter fl' = s.setFilter fl' := rfl

@[simp] theorem State.takeDraws_setFilter (s : State) (fl : FilterBlock) (n : Nat) :
    (s.setFilter fl).takeDraws n = (s.takeDraws n).setFilter fl := rfl

@[simp] theorem State.setFilter_self (s : State) : s.setFilter s.filter = s := rfl

/-! ## Mailboxes and FIFOs of an instance -/

@[simp] theorem Controller.mb_setMb_same (c : Controller) (x : MbIx) (m : Mailbox) : (c.setMb x m).mb x = m := by
  cases x <;> rfl

theorem Controller.mb_setMb_other (c : Controller) (x y : MbIx) (m : Mailbox) (h : y ≠ x) :
    (c.setMb x m).mb y = c.mb y := by
  cases x <;> cases y <;> first | rfl | exact absurd rfl h

@[simp] theorem Controller.setMb_mb_self (c : Controller) (x : MbIx) : c.setMb x (c.mb x) = c := by
  cases x <;> rfl

@[simp] theorem Controller.setMb_setMb (c : Controller) (x : MbIx) (m n : Mailbox) :
    (c.setMb x m).setMb x n = c.setMb x n := by
  cases x <;> rfl

@[simp] theorem Controller.fifo_setFifo_same (c : Controller) (x : FifoIx) (f : Fifo) :
    (c.setFifo x f).fifo x = f := by
  cases x <;> rfl

theorem Controller.fifo_setFifo_other (c : Controller) (x y : FifoIx) (f : Fifo) (h : y ≠ x) :
    (c.setFifo x f).fifo y = c.fifo y := by
  cases x <;> cases y <;> first | rfl | exact absurd rfl h

@[simp] theorem Controller.setFifo_fifo_self (c : Controller) (x : FifoIx) : c.setFifo x (c.fifo x) = c := by
  cases x <;> rfl

@[simp] theorem Controller.setFifo_setFifo (c : Controller) (x : FifoIx) (f g : Fifo) :
    (c.setFifo x f).setFifo x g = c.setFifo x g := by
  cases x <;> rfl

@[simp] theorem Controller.setMb_mcr (c : Controller) (x : MbIx) (m : Mailbox) : (c.setMb x m).mcr = c.mcr := by
  cases x <;> rfl

@[simp] theorem Controller.setFifo_mcr (c : Controller) (x : FifoIx) (f : Fifo) : (c.setFifo x f).mcr = c.mcr := by
  cases x <;> rfl

@[simp] theorem Controller.setMb_mode (c : Controller) (x : MbIx) (m : Mailbox) : (c.setMb x m).mode = c.mode := by
  cases x <;> rfl

@[simp] theorem Controller.setFifo_mode (c : Controller) (x : FifoIx) (f : Fifo) : (c.setFifo x f).mode = c.mode := by
  cases x <;> rfl

@[simp] theorem Controller.setMb_erri (c : Controller) (x : MbIx) (m : Mailbox) : (c.setMb x m).erri = c.erri := by
  cases x <;> rfl

@[simp] theorem Controller.setFifo_erri (c : Controller) (x : FifoIx) (f : Fifo) : (c.setFifo x f).erri = c.erri := by
  cases x <;> rfl

@[simp] theorem Controller.setMb_wkui (c : Controller) (x : MbIx) (m : Mailbox) : (c.setMb x m).wkui = c.wkui := by
  cases x <;> rfl

@[simp] theorem Controller.setFifo_wkui (c : Controller) (x : FifoIx) (f : Fifo) : (c.setFifo x f).wkui = c.wkui := by
  cases x <;> rfl

@[simp] theorem Controller.setMb_slaki (c : Controller) (x : MbIx) (m : Mailbox) : (c.setMb x m).slaki = c.slaki := by
  cases x <;> rfl

@[simp] theorem Controller.setFifo_slaki (c : Controller) (x : FifoIx) (f : Fifo) : (c.setFifo x f).slaki = c.slaki := by
  cases x <;> rfl

@[simp] theorem Controller.setMb_ier (c : Controller) (x : MbIx) (m : Mailbox) : (c.setMb x m).ier = c.ier := by
  cases x <;> rfl

@[simp] theorem Controller.setFifo_ier (c : Controller) (x : FifoIx) (f : Fifo) : (c.setFifo x f).ier = c.ier := by
  cases x <;> rfl

@[simp] theorem Controller.setMb_esr (c : Controller) (x : MbIx) (m : Mailbox) : (c.setMb x m).esr = c.esr := by
  cases x <;> rfl

@[simp] theorem Controller.setFifo_esr (c : Controller) (x : FifoIx) (f : Fifo) : (c.setFifo x f).esr = c.esr := by
  cases x <;> rfl

@[simp] theorem Controller.setMb_btr (c : Controller) (x : MbIx) (m : Mailbox) : (c.setMb x m).btr = c.btr := by
  cases x <;> rfl

@[simp] theorem Controller.setFifo_btr (c : Controller) (x : FifoIx) (f : Fifo) : (c.setFifo x f).btr = c.btr := by
  cases x <;> rfl

@[simp] theorem Controller.setMb_boffInitSeen (c : Controller) (x : MbIx) (m : Mailbox) : (c.setMb x m).boffInitSeen = c.boffInitSeen := by
  cases x <;> rfl

@[simp] theorem Controller.setFifo_boffInitSeen (c : Controller) (x : FifoIx) (f : Fifo) : (c.setFifo x f).boffInitSeen = c.boffInitSeen := by
  cases x <;> rfl

@[simp] theorem Controller.setMb_resetAsserted (c : Controller) (x : MbIx) (m : Mailbox) : (c.setMb x m).resetAsserted = c.resetAsserted := by
  cases x <;> rfl

@[simp] theorem Controller.setFifo_resetAsserted (c : Controller) (x : FifoIx) (f : Fifo) : (c.setFifo x f).resetAsserted = c.resetAsserted := by
  cases x <;> rfl

@[simp] theorem Controller.fifo_setMb (c : Controller) (x : MbIx) (m : Mailbox) (y : FifoIx) :
    (c.setMb x m).fifo y = c.fifo y := by
  cases x <;> cases y <;> rfl

@[simp] theorem Controller.mb_setFifo (c : Controller) (x : FifoIx) (f : Fifo) (y : MbIx) :
    (c.setFifo x f).mb y = c.mb y := by
  cases x <;> cases y <;> rfl

@[simp] theorem Controller.mb_with_mcr (c : Controller) (v : Mcr) (x : MbIx) :
    Controller.mb { c with mcr := v } x = c.mb x := by
  cases x <;> rfl

@[simp] theorem Controller.fifo_with_mcr (c : Controller) (v : Mcr) (x : FifoIx) :
    Controller.fifo { c with mcr := v } x = c.fifo x := by
  cases x <;> rfl

@[simp] theorem Controller.mb_with_mode (c : Controller) (v : Mode) (x : MbIx) :
    Controller.mb { c with mode := v } x = c.mb x := by
  cases x <;> rfl

@[simp] theorem Controller.fifo_with_mode (c : Controller) (v : Mode) (x : FifoIx) :
    Controller.fifo { c with mode := v } x = c.fifo x := by
  cases x <;> rfl

@[simp] theorem Controller.mb_with_erri (c : Controller) (v : Bool) (x : MbIx) :
    Controller.mb { c with erri := v } x = c.mb x := by
  cases x <;> rfl

@[simp] theorem Controller.fifo_with_erri (c : Controller) (v : Bool) (x : FifoIx) :
    Controller.fifo { c with erri := v } x = c.fifo x := by
  cases x <;> rfl

@[simp] theorem Controller.mb_with_wkui (c : Controller) (v : Bool) (x : MbIx) :
    Controller.mb { c with wkui := v } x = c.mb x := by
  cases x <;> rfl

@[simp] theorem Controller.fifo_with_wkui (c : Controller) (v : Bool) (x : FifoIx) :
    Controller.fifo { c with wkui := v } x = c.fifo x := by
  cases x <;> rfl

@[simp] theorem Controller.mb_with_slaki (c : Controller) (v : Bool) (x : MbIx) :
    Controller.mb { c with slaki := v } x = c.mb x := by
  cases x <;> rfl

@[simp] theorem Controller.fifo_with_slaki (c : Controller) (v : Bool) (x : FifoIx) :
    Controller.fifo { c with slaki := v } x = c.fifo x := by
  cases x <;> rfl

@[simp] theorem Controller.mb_with_ier (c : Controller) (v : Ier) (x : MbIx) :
    Controller.mb { c with ier := v } x = c.mb x := by
  cases x <;> rfl

@[simp] theorem Controller.fifo_with_ier (c : Controller) (v : Ier) (x : FifoIx) :
    Controller.fifo { c with ier := v } x = c.fifo x := by
  cases x <;> rfl

@[simp] theorem Controller.mb_with_esr (c : Controller) (v : Esr) (x : MbIx) :
    Controller.mb { c with esr := v } x = c.mb x := by
  cases x <;> rfl

@[simp] theorem Controller.fifo_with_esr (c : Controller) (v : Esr) (x : FifoIx) :
    Controller.fifo { c with esr := v } x = c.fifo x := by
  cases x <;> rfl

@[simp] theorem Controller.mb_with_btr (c : Controller) (v : Btr) (x : MbIx) :
    Controller.mb { c with btr := v } x = c.mb x := by
  cases x <;> rfl

@[simp] theorem Controller.fifo_with_btr (c : Controller) (v : Btr) (x : FifoIx) :
    Controller.fifo { c with btr := v } x = c.fifo x := by
  cases x <;> rfl

@[simp] theorem Controller.mb_with_boffInitSeen (c : Controller) (v : Bool) (x : MbIx) :
    Controller.mb { c with boffInitSeen := v } x = c.mb x := by
  cases x <;> rfl

@[simp] theorem Controller.fifo_with_boffInitSeen (c : Controller) (v : Bool) (x : FifoIx) :
    Controller.fifo { c with boffInitSeen := v } x = c.fifo x := by
  cases x <;> rfl

@[simp] theorem Controller.mb_with_resetAsserted (c : Controller) (v : Bool) (x : MbIx) :
    Controller.mb { c with resetAsserted := v } x = c.mb x := by
  cases x <;> rfl

@[simp] theorem Controller.fifo_with_resetAsserted (c : Controller) (v : Bool) (x : FifoIx) :
    Controller.fifo { c with resetAsserted := v } x = c.fifo x := by
  cases x <;> rfl

/-! ## Content words -/

@[simp] theorem BankWords.get_set_same (b : BankWords) (k : WordIx) (v : Word) : (b.set k v).get k = v := by
  cases k <;> rfl

theorem BankWords.get_set_other (b : BankWords) (k l : WordIx) (v : Word) (h : l ≠ k) :
    (b.set k v).get l = b.get l := by
  cases k <;> cases l <;> first | rfl | exact absurd rfl h

/-! ## The operation the host is in -/

@[simp] theorem State.calling_call (s : State) (c : Option Call) : (s.calling c).call = c := rfl

@[simp] theorem State.calling_params (s : State) (c : Option Call) : (s.calling c).params = s.params := rfl

@[simp] theorem State.calling_filter (s : State) (c : Option Call) : (s.calling c).filter = s.filter := rfl

@[simp] theorem State.calling_gaps (s : State) (c : Option Call) : (s.calling c).gaps = s.gaps := rfl

@[simp] theorem State.calling_draws (s : State) (c : Option Call) : (s.calling c).draws = s.draws := rfl

@[simp] theorem State.calling_program (s : State) (c : Option Call) : (s.calling c).program = s.program := rfl

@[simp] theorem State.calling_busOut (s : State) (c : Option Call) : (s.calling c).busOut = s.busOut := rfl

@[simp] theorem State.calling_result (s : State) (c : Option Call) : (s.calling c).result = s.result := rfl

@[simp] theorem State.calling_calling (s : State) (c d : Option Call) : (s.calling c).calling d = s.calling d := rfl

@[simp] theorem State.can_calling (s : State) (c : Option Call) (i : Inst) : (s.calling c).can i = s.can i := by
  cases i <;> rfl

@[simp] theorem State.setCan_calling (s : State) (c : Option Call) (i : Inst) (k : Controller) :
    (s.calling c).setCan i k = (s.setCan i k).calling c := by cases i <;> rfl

@[simp] theorem State.setFilter_calling (s : State) (c : Option Call) (fl : FilterBlock) :
    (s.calling c).setFilter fl = (s.setFilter fl).calling c := rfl

@[simp] theorem State.send_calling (s : State) (c : Option Call) (l) : (s.calling c).send l = (s.send l).calling c := rfl

@[simp] theorem State.takeDraws_calling (s : State) (c : Option Call) (n) :
    (s.calling c).takeDraws n = (s.takeDraws n).calling c := rfl

@[simp] theorem State.returning_calling (s : State) (c : Option Call) (r) :
    (s.calling c).returning r = (s.returning r).calling c := rfl

end Sys2Proof.Machine
end

