-- ==== Sys2Proof/Laws/Words.lean ====
section
/-! SUPPORT. The laws of words with drawn bits, flags and fields: a bit or a field of a bus word is that bit or field
of its 32-bit value, whatever the draw; and the bits of a flag or a field placed in a word. -/

namespace Sys2Proof

theorem BusWord.getLsbD_word (w : BusWord) (k : Nat) :
    w.word.getLsbD k = if w.free.getLsbD k then w.draw.getLsbD k else w.val.getLsbD k := by
  by_cases hk : k < 32
  · simp only [BusWord.word, BitVec.getLsbD_or, BitVec.getLsbD_and, BitVec.getLsbD_not, hk, decide_true,
      Bool.true_and]
    cases w.free.getLsbD k <;> simp
  · simp [BitVec.getLsbD_of_ge _ k (Nat.le_of_not_lt hk)]

theorem bits_of_field_zero {w lo n j : Nat} {v : BitVec w} (h : v.extractLsb' lo n = 0) (hj : j < n) :
    v.getLsbD (lo + j) = false := by
  have := congrArg (fun v => v.getLsbD j) h
  simpa [hj, -BitVec.getLsbD_eq_getElem] using this

theorem bits_of_field_ones {w lo n j : Nat} {v : BitVec w} (h : v.extractLsb' lo n = BitVec.allOnes n) (hj : j < n) :
    v.getLsbD (lo + j) = true := by
  have := congrArg (fun v => v.getLsbD j) h
  simpa [hj, -BitVec.getLsbD_eq_getElem] using this

/-- `bit` reads the bit of the 32-bit word (R7). -/
theorem BusWord.bit_eq_word (w : BusWord) (k : Nat) : w.bit k = w.word.getLsbD k := by
  rw [getLsbD_word]; rfl

/-- `field` reads the field of the 32-bit word (R7). -/
theorem BusWord.field_eq_word (w : BusWord) (lo n : Nat) : w.field lo n = w.word.extractLsb' lo n := by
  unfold BusWord.field
  split
  · rename_i h
    apply BitVec.eq_of_getLsbD_eq
    intro j hj
    simp only [BitVec.getLsbD_extractLsb', hj, decide_true, Bool.true_and, getLsbD_word, bits_of_field_zero h hj]
    rfl
  · rfl

/-- A field is known by its bits, none of them drawn. -/
theorem BusWord.field_eq_of_bits (w : BusWord) (lo n : Nat) (v : BitVec n) (_ : lo + n ≤ 32)
    (h : ∀ j, j < n → w.free.getLsbD (lo + j) = false ∧ w.val.getLsbD (lo + j) = v.getLsbD j) :
    w.field lo n = v := by
  rw [BusWord.field_eq_word]
  apply BitVec.eq_of_getLsbD_eq
  intro j hj
  simp only [BitVec.getLsbD_extractLsb', hj, decide_true, Bool.true_and, getLsbD_word, (h j hj).1, (h j hj).2]
  simp

/-- `whole` is the 32-bit word. -/
theorem BusWord.whole_eq_word (w : BusWord) : w.whole = w.word := by
  unfold BusWord.whole
  split
  · rename_i h
    apply BitVec.eq_of_getLsbD_eq
    intro j _
    simp [getLsbD_word, h, -BitVec.getLsbD_eq_getElem]
  · rfl

/-- What an RMW writes back is `(v & ~clr) | set` (R8). -/
theorem BusWord.word_update (w : BusWord) (clr set : Word) :
    (w.update clr set).word = (w.word &&& ~~~clr) ||| set := by
  apply BitVec.eq_of_getLsbD_eq
  intro k hk
  simp only [getLsbD_word, BusWord.update, BitVec.getLsbD_or, BitVec.getLsbD_and, BitVec.getLsbD_not, hk,
    decide_true, Bool.true_and]
  cases w.free.getLsbD k <;> cases clr.getLsbD k <;> cases set.getLsbD k <;> simp

@[simp] theorem BusWord.ofWord_word (v : Word) : (BusWord.ofWord v).word = v := by
  rw [← BusWord.whole_eq_word]; rfl

@[simp] theorem BusWord.ofWord_bit (v : Word) (k : Nat) : (BusWord.ofWord v).bit k = v.getLsbD k := by
  simp [BusWord.bit_eq_word]

@[simp] theorem BusWord.ofWord_field (v : Word) (lo n : Nat) :
    (BusWord.ofWord v).field lo n = v.extractLsb' lo n := by
  simp [BusWord.field_eq_word]

@[simp] theorem BusWord.ofWord_whole (v : Word) : (BusWord.ofWord v).whole = v := rfl

theorem BusWord.update_bit (w : BusWord) (clr set : Word) (k : Nat) (hk : k < 32) :
    (w.update clr set).bit k = ((w.bit k && !clr.getLsbD k) || set.getLsbD k) := by
  simp only [BusWord.bit_eq_word, BusWord.word_update, BitVec.getLsbD_or, BitVec.getLsbD_and, BitVec.getLsbD_not, hk,
    decide_true, Bool.true_and]

/-- A field that the RMW neither clears nor sets is written back as read. -/
theorem BusWord.update_field_kept (w : BusWord) (clr set : Word) (lo n : Nat) (h : lo + n ≤ 32)
    (hc : clr.extractLsb' lo n = 0) (hs : set.extractLsb' lo n = 0) :
    (w.update clr set).field lo n = w.field lo n := by
  simp only [BusWord.field_eq_word, BusWord.word_update]
  apply BitVec.eq_of_getLsbD_eq
  intro j hj
  simp only [BitVec.getLsbD_extractLsb', BitVec.getLsbD_or, BitVec.getLsbD_and, BitVec.getLsbD_not,
    bits_of_field_zero hc hj, bits_of_field_zero hs hj, show lo + j < 32 by omega]
  simp [-BitVec.getLsbD_eq_getElem]

/-- A field that the RMW clears whole takes the value set. -/
theorem BusWord.update_field_set (w : BusWord) (clr set : Word) (lo n : Nat) (h : lo + n ≤ 32)
    (hc : clr.extractLsb' lo n = BitVec.allOnes n) :
    (w.update clr set).field lo n = set.extractLsb' lo n := by
  simp only [BusWord.field_eq_word, BusWord.word_update]
  apply BitVec.eq_of_getLsbD_eq
  intro j hj
  simp only [BitVec.getLsbD_extractLsb', BitVec.getLsbD_or, BitVec.getLsbD_and, BitVec.getLsbD_not,
    bits_of_field_ones hc hj, show lo + j < 32 by omega]
  simp [-BitVec.getLsbD_eq_getElem]

end Sys2Proof

namespace Sys2Proof.Machine

/-- The bits of a flag placed at bit k. -/
@[simp] theorem getLsbD_flagAt (b : Bool) (k j : Nat) (hk : k < 32) :
    (flagAt b k).getLsbD j = (b && decide (j = k)) := by
  cases b
  · simp [flagAt]
  · simp only [flagAt, if_true, Bool.true_and]
    rw [BitVec.getLsbD_ofNat, Nat.testBit_two_pow]
    by_cases h : j = k
    · subst h; simp [hk]
    · simp [h, Ne.symm h]

/-- The bits of a field placed at bit `lo`. -/
@[simp] theorem getLsbD_fieldAt {n : Nat} (v : BitVec n) (lo j : Nat) :
    (fieldAt v lo).getLsbD j = (decide (j < 32) && (decide (lo ≤ j) && v.getLsbD (j - lo))) := by
  simp only [fieldAt, BitVec.getLsbD_shiftLeft, BitVec.getLsbD_setWidth]
  by_cases h1 : j < 32
  · by_cases h2 : j < lo
    · simp [h1, h2, -BitVec.getLsbD_eq_getElem]
    · simp [h1, h2, show lo ≤ j by omega, show j - lo < 32 by omega, -BitVec.getLsbD_eq_getElem]
  · simp [h1, -BitVec.getLsbD_eq_getElem]

/-- A flag next to other bits does not reach a field outside its place. -/
theorem extractLsb'_flagAt (b : Bool) (k lo n : Nat) (hk : k < 32) (h : k < lo ∨ lo + n ≤ k) :
    (flagAt b k).extractLsb' lo n = 0 := by
  apply BitVec.eq_of_getLsbD_eq
  intro j hj
  have hne : lo + j ≠ k := by omega
  simp [BitVec.getLsbD_extractLsb', getLsbD_flagAt b k _ hk, hne, -BitVec.getLsbD_eq_getElem]

/-- A field read back from its own place. -/
theorem extractLsb'_fieldAt_same {n : Nat} (v : BitVec n) (lo : Nat) (h : lo + n ≤ 32) :
    (fieldAt v lo).extractLsb' lo n = v := by
  apply BitVec.eq_of_getLsbD_eq
  intro j hj
  simp only [BitVec.getLsbD_extractLsb', getLsbD_fieldAt, hj, show lo + j < 32 by omega, decide_true,
    Bool.true_and, Nat.le_add_right, Nat.add_sub_cancel_left]

/-- A field does not reach another place. -/
theorem extractLsb'_fieldAt_other {m : Nat} (v : BitVec m) (at' lo n : Nat) (h : at' + m ≤ lo ∨ lo + n ≤ at') :
    (fieldAt v at').extractLsb' lo n = 0 := by
  apply BitVec.eq_of_getLsbD_eq
  intro j hj
  simp only [BitVec.getLsbD_extractLsb', getLsbD_fieldAt]
  by_cases h1 : at' ≤ lo + j
  · simp [BitVec.getLsbD_of_ge v (lo + j - at') (by omega), -BitVec.getLsbD_eq_getElem]
  · simp [h1, -BitVec.getLsbD_eq_getElem]

/-- A byte of a packed word (R159). -/
theorem unpackByte_pack4 (b0 b1 b2 b3 : Byte) :
    unpackByte (pack4 b0 b1 b2 b3) 0 = b0 ∧ unpackByte (pack4 b0 b1 b2 b3) 1 = b1 ∧
      unpackByte (pack4 b0 b1 b2 b3) 2 = b2 ∧ unpackByte (pack4 b0 b1 b2 b3) 3 = b3 := by
  refine ⟨?_, ?_, ?_, ?_⟩ <;>
  · apply BitVec.eq_of_getLsbD_eq
    intro j hj
    simp only [unpackByte, pack4, BitVec.getLsbD_extractLsb', BitVec.getLsbD_append, hj, decide_true, Bool.true_and]
    repeat' split
    all_goals first
      | omega
      | exact congrArg _ (by omega)

end Sys2Proof.Machine
end

