-- ==== Sys2Proof/Laws/Access.lean ====
section
/-! SUPPORT. What the host's accesses can do, said once: a read or a write that is let through, one that is not, the
pieces a host program is made of, and the property that every piece of a host program keeps. -/

namespace Sys2Proof.Machine

theorem checkAccess_read_eq_none (s : State) (i : Inst) (r : Reg) :
    checkAccess s (.read i r) r = none ↔ accessible s i r = true := by
  rcases h1 : hasInst s.params i <;> rcases h2 : (s.can i).resetAsserted <;>
    rcases h3 : decodedIn s.params i r <;> simp [checkAccess, accessible, Access.read, h1, h2, h3]

theorem checkAccess_write_eq_none (s : State) (i : Inst) (r : Reg) (v : Word) :
    checkAccess s (.write i r v) r = none ↔ accessible s i r = true := by
  rcases h1 : hasInst s.params i <;> rcases h2 : (s.can i).resetAsserted <;>
    rcases h3 : decodedIn s.params i r <;> simp [checkAccess, accessible, Access.write, h1, h2, h3]

/-- A read that is let through. -/
theorem regRead_ok {s : State} {i : Inst} {r : Reg} (h : accessible s i r = true) :
    regRead i r s = .ok (readRule s i (Config.draw s.draws) r, s.takeDraws 1) := by
  simp [regRead, (checkAccess_read_eq_none s i r).2 h]

/-- A write that is let through acts as its register's rule says. -/
theorem regWrite_ok {s s' : State} {i : Inst} {r : Reg} {v : BusWord} (h : accessible s i r = true)
    (hw : writeRule (.write i r v.whole) s i v r = .ok s') : regWrite i r v s = .ok ((), s') := by
  simp [regWrite, (checkAccess_write_eq_none s i r v.whole).2 h, hw]

/-- A write that its register's rule stops. -/
theorem regWrite_stop {s : State} {i : Inst} {r : Reg} {v : BusWord} {e : Stop} (h : accessible s i r = true)
    (hw : writeRule (.write i r v.whole) s i v r = .error e) : regWrite i r v s = .error e := by
  simp [regWrite, (checkAccess_write_eq_none s i r v.whole).2 h, hw]

/-- Everything a read that answers has done. -/
theorem regRead_cases {s s' : State} {i : Inst} {r : Reg} {w : BusWord} (h : regRead i r s = .ok (w, s')) :
    accessible s i r = true ∧ w = readRule s i (Config.draw s.draws) r ∧ s' = s.takeDraws 1 := by
  unfold regRead at h
  split at h
  · cases h
  · rename_i hc
    cases h
    exact ⟨(checkAccess_read_eq_none s i r).1 hc, rfl, rfl⟩

/-- Everything a write that answers has done. -/
theorem regWrite_cases {s s' : State} {i : Inst} {r : Reg} {v : BusWord} {u : Unit}
    (h : regWrite i r v s = .ok (u, s')) :
    accessible s i r = true ∧ writeRule (.write i r v.whole) s i v r = .ok s' := by
  unfold regWrite at h
  split at h
  · cases h
  · rename_i hc
    split at h
    · rename_i hw
      cases h
      exact ⟨(checkAccess_write_eq_none s i r v.whole).1 hc, hw⟩
    · cases h

/-! ## Pieces of a program -/

/-- A piece that answers, followed by more. -/
theorem Prog.bind_ok {α β : Type} {p : Prog α} {k : α → Prog β} {s s' : State} {a : α} (h : p s = .ok (a, s')) :
    (p >>= k) s = k a s' := by
  show (StateT.bind p k) s = _
  simp [StateT.bind, h, bind, Except.bind]

/-- A piece that stops stops the whole. -/
theorem Prog.bind_stop {α β : Type} {p : Prog α} {k : α → Prog β} {s : State} {e : Stop} (h : p s = .error e) :
    (p >>= k) s = .error e := by
  show (StateT.bind p k) s = _
  simp [StateT.bind, h, bind, Except.bind]

/-- A program that answers has answered piece by piece. -/
theorem Prog.bind_cases {α β : Type} {p : Prog α} {k : α → Prog β} {s t : State} {b : β}
    (h : (p >>= k) s = .ok (b, t)) : ∃ a s', p s = .ok (a, s') ∧ k a s' = .ok (b, t) := by
  change (StateT.bind p k) s = _ at h
  simp only [StateT.bind, bind, Except.bind] at h
  split at h
  · cases h
  · rename_i x hx
    exact ⟨x.1, x.2, hx, h⟩

@[simp] theorem Prog.pure_eq {α : Type} (a : α) (s : State) : (pure a : Prog α) s = .ok (a, s) := rfl

@[simp] theorem gap_eq (s : State) : gap s = .ok ((), afterGap s) := rfl

/-! An operation carried out at once, in the words of the accesses. -/

@[simp] theorem atOnce_read : atOnce.read = regRead := rfl

@[simp] theorem atOnce_write : atOnce.write = regWrite := rfl

@[simp] theorem atOnce_draw : atOnce.draw = takeDraw := rfl

@[simp] theorem atOnce_gap : atOnce.gap = gap := rfl

@[simp] theorem atOnce_poll : atOnce.poll = pollInak := rfl

@[simp] theorem atOnce_assertReset : atOnce.assertReset = resetAssert := rfl

@[simp] theorem atOnce_clearReset : atOnce.clearReset = resetClear := rfl

@[simp] theorem atOnce_params_eq (s : State) : atOnce.params s = .ok (s.params, s) := rfl

@[simp] theorem atOnce_fail {α : Type} (f : Fault) : (atOnce.fail f : Prog α) = Prog.fault f := rfl

theorem thenRead_eq (i : Inst) (r : Reg) (s : State) : atOnce.thenRead i r s = regRead i r (afterGap s) := rfl

theorem thenWrite_eq (i : Inst) (r : Reg) (v : BusWord) (s : State) :
    atOnce.thenWrite i r v s = regWrite i r v (afterGap s) := rfl

theorem thenRmw_eq (i : Inst) (r : Reg) (clr set : Word) (s : State) :
    atOnce.thenRmw i r clr set s = atOnce.rmw i r clr set (afterGap s) := rfl

/-- A read-modify-write whose two accesses are let through: the word written is made of the word READ, before the
agent steps between the two (R133). -/
theorem rmw_ok {s s' : State} {i : Inst} {r : Reg} {clr set : Word} (h : accessible s i r = true)
    (h' : accessible (afterGap (s.takeDraws 1)) i r = true)
    (hw : writeRule
      (.write i r (((readRule s i (Config.draw s.draws) r).update clr set).whole))
      (afterGap (s.takeDraws 1)) i ((readRule s i (Config.draw s.draws) r).update clr set) r
        = .ok s') :
    atOnce.rmw i r clr set s = .ok ((), s') := by
  unfold Driver.rmw
  rw [atOnce_read, Prog.bind_ok (regRead_ok h), thenWrite_eq]
  exact regWrite_ok h' hw

/-! ## Properties every piece keeps -/

/-- A program keeps a property of the state when it holds after every answer it gives from a state that has it. -/
structure Prog.Keeps {α : Type} (I : State → Prop) (p : Prog α) : Prop where
  kept : ∀ s a s', I s → p s = .ok (a, s') → I s'

theorem Prog.Keeps.bind {α β : Type} {I : State → Prop} {p : Prog α} {k : α → Prog β} (hp : p.Keeps I)
    (hk : ∀ a, (k a).Keeps I) : (p >>= k).Keeps I := by
  constructor
  intro s b t hs h
  obtain ⟨a, s', h1, h2⟩ := Prog.bind_cases h
  exact (hk a).kept s' b t (hp.kept s a s' hs h1) h2

theorem Prog.Keeps.pure {α : Type} {I : State → Prop} (a : α) : Prog.Keeps I (pure a : Prog α) := by
  constructor
  intro s b t hs h
  cases h
  exact hs

theorem Prog.Keeps.fault {α : Type} {I : State → Prop} (f : Fault) : Prog.Keeps I (Prog.fault f : Prog α) := by
  constructor
  intro s b t _ h
  cases h

/-- An outcome keeps a property when its next state has it. -/
theorem finish_next {p : Prog Result} {s t : State} (h : finish p s = .next t) :
    ∃ r s', p s = .ok (r, s') ∧ t = s'.returning r := by
  unfold finish at h
  split at h
  · rename_i r s' hp
    cases h
    exact ⟨r, s', hp, rfl⟩
  · cases h
  · cases h

/-- A program that answers, as an outcome. -/
theorem finish_ok {p : Prog Result} {s s' : State} {r : Result} (h : p s = .ok (r, s')) :
    finish p s = .next (s'.returning r) := by
  simp [finish, h]

/-- A read instruction that is let through. -/
theorem readInstr_ok {s : State} {i : Inst} {r : Reg} (h : accessible s i r = true) :
    readInstr i r s =
      .next ((s.takeDraws 1).returning (.word (readRule s i (Config.draw s.draws) r))) := by
  unfold readInstr
  rw [finish_ok (s' := s.takeDraws 1)
    (r := .word (readRule s i (Config.draw s.draws) r))]
  rw [Prog.bind_ok (regRead_ok h)]
  rfl

/-- A write instruction that is let through and that its rule accepts. -/
theorem writeInstr_ok {s s' : State} {i : Inst} {r : Reg} {v : Word} (h : accessible s i r = true)
    (hw : writeRule (.write i r v) s i (.ofWord v) r = .ok s') :
    writeInstr i r v s = .next (s'.returning .none) := by
  unfold writeInstr
  rw [finish_ok (s' := s') (r := .none)]
  rw [Prog.bind_ok (regWrite_ok h (by simpa using hw))]
  rfl

/-- A write instruction that its rule stops. -/
theorem writeInstr_fault {s : State} {i : Inst} {r : Reg} {v : Word} {f : Fault} (h : accessible s i r = true)
    (hw : writeRule (.write i r v) s i (.ofWord v) r = .error (.fault f)) :
    writeInstr i r v s = .fault f := by
  unfold writeInstr finish
  rw [Prog.bind_stop (regWrite_stop h (by simpa using hw))]

/-! ## The read and write instructions of a register -/

/-- `exec` of the instruction that reads a register is one read of it. -/
theorem exec_rd (r : Reg) (i : Inst) (s : State) : exec (Instr.rd r i) s = readInstr i r s := by
  cases r with
  | fr b k => fin_cases b <;> cases k <;> rfl
  | rfr x => cases x <;> rfl
  | tir x => cases x <;> rfl
  | tdtr x => cases x <;> rfl
  | tdlr x => cases x <;> rfl
  | tdhr x => cases x <;> rfl
  | rir x => cases x <;> rfl
  | rdtr x => cases x <;> rfl
  | rdlr x => cases x <;> rfl
  | rdhr x => cases x <;> rfl
  | _ => rfl

/-- `exec` of the instruction that writes a register is one write of it. -/
theorem exec_wr (r : Reg) (i : Inst) (v : Word) (s : State) : exec (Instr.wr r i v) s = writeInstr i r v s := by
  cases r with
  | fr b k => fin_cases b <;> cases k <;> rfl
  | rfr x => cases x <;> rfl
  | tir x => cases x <;> rfl
  | tdtr x => cases x <;> rfl
  | tdlr x => cases x <;> rfl
  | tdhr x => cases x <;> rfl
  | rir x => cases x <;> rfl
  | rdtr x => cases x <;> rfl
  | rdlr x => cases x <;> rfl
  | rdhr x => cases x <;> rfl
  | _ => rfl

end Sys2Proof.Machine
end

