-- ==== Sys2Proof/Laws/Agents.lean ====
section
/-! SUPPORT. What the agents' steps can do, said once: which fields of the state no agent writes, and what the gap
between two accesses leaves alone. -/

namespace Sys2Proof.Machine

/-! ## One step -/

/-- Everything a scheduled step can do: its effect when it is enabled, else nothing. -/
theorem agentStep_cases (a : AgentStep) (s : State) :
    (a.enabled s = true ∧ agentStep a s = a.perform s) ∨ (a.enabled s = false ∧ agentStep a s = s) := by
  unfold agentStep
  cases h : a.enabled s <;> simp

/-- An effect is a change of its own instance, and for an attempt an addition to the bus log. -/
theorem AgentStep.perform_change (a : AgentStep) (s : State) :
    ∃ c l, a.perform s = (s.setCan a.inst c).send l := by
  cases a with
  | modeFsm i =>
    simp only [AgentStep.perform]
    cases modeTarget (s.can i) with
    | some t => exact ⟨_, [], (State.send_nil _).symm⟩
    | none => exact ⟨s.can i, [], by simp [AgentStep.inst]⟩
  | txAttempt i x stamp b6 b7 o => exact ⟨_, _, rfl⟩
  | txAbort i x => exact ⟨_, [], (State.send_nil _).symm⟩
  | rxFrame i f d => exact ⟨_, [], (State.send_nil _).symm⟩
  | errorEvent i c d => exact ⟨_, [], (State.send_nil _).symm⟩
  | wakeUp i => exact ⟨_, [], (State.send_nil _).symm⟩
  | busOffRecovery i => exact ⟨_, [], (State.send_nil _).symm⟩

/-- A scheduled step changes at most its own instance and the bus log. -/
theorem agentStep_change (a : AgentStep) (s : State) :
    ∃ c l, agentStep a s = (s.setCan a.inst c).send l := by
  rcases agentStep_cases a s with ⟨_, h⟩ | ⟨_, h⟩
  · rw [h]; exact a.perform_change s
  · rw [h]
    exact ⟨s.can a.inst, [], by simp⟩

@[simp] theorem agentStep_params (a : AgentStep) (s : State) : (agentStep a s).params = s.params := by
  obtain ⟨c, l, h⟩ := agentStep_change a s
  rw [h]; simp

@[simp] theorem agentStep_filter (a : AgentStep) (s : State) : (agentStep a s).filter = s.filter := by
  obtain ⟨c, l, h⟩ := agentStep_change a s
  rw [h]; simp

@[simp] theorem agentStep_program (a : AgentStep) (s : State) : (agentStep a s).program = s.program := by
  obtain ⟨c, l, h⟩ := agentStep_change a s
  rw [h]; simp

@[simp] theorem agentStep_call (a : AgentStep) (s : State) : (agentStep a s).call = s.call := by
  obtain ⟨c, l, h⟩ := agentStep_change a s
  rw [h]; simp

@[simp] theorem agentStep_gaps (a : AgentStep) (s : State) : (agentStep a s).gaps = s.gaps := by
  obtain ⟨c, l, h⟩ := agentStep_change a s
  rw [h]; simp

@[simp] theorem agentStep_draws (a : AgentStep) (s : State) : (agentStep a s).draws = s.draws := by
  obtain ⟨c, l, h⟩ := agentStep_change a s
  rw [h]; simp

@[simp] theorem agentStep_result (a : AgentStep) (s : State) : (agentStep a s).result = s.result := by
  obtain ⟨c, l, h⟩ := agentStep_change a s
  rw [h]; simp

/-- A step leaves the other instance alone. -/
theorem agentStep_can_other (a : AgentStep) (s : State) (i : Inst) (h : i ≠ a.inst) :
    (agentStep a s).can i = s.can i := by
  obtain ⟨c, l, hc⟩ := agentStep_change a s
  rw [hc]; simp [State.can_setCan_other _ _ _ _ h]

/-- A property of the instances that every effect keeps is kept by every step. -/
theorem agentStep_keeps (P : Controller → Controller → Prop) (hrefl : ∀ c, P c c)
    (hstep : ∀ (a : AgentStep) (s : State), a.enabled s = true → P (s.can a.inst) ((a.perform s).can a.inst))
    (a : AgentStep) (s : State) (i : Inst) : P (s.can i) ((agentStep a s).can i) := by
  by_cases hi : i = a.inst
  · subst hi
    rcases agentStep_cases a s with ⟨he, h⟩ | ⟨_, h⟩
    · rw [h]; exact hstep a s he
    · rw [h]; exact hrefl _
  · rw [agentStep_can_other a s i hi]; exact hrefl _

/-! ## What an effect is on its own instance -/

theorem perform_modeFsm_can (i : Inst) (s : State) :
    ((AgentStep.modeFsm i).perform s).can i =
      match modeTarget (s.can i) with
      | some t => (s.can i).enterMode t
      | none => s.can i := by
  simp only [AgentStep.perform]
  cases modeTarget (s.can i) <;> simp

@[simp] theorem perform_txAttempt_can (i : Inst) (x : MbIx) (st : Half) (b6 b7 : Byte) (o : TxOutcome) (s : State) :
    ((AgentStep.txAttempt i x st b6 b7 o).perform s).can i =
      (s.can i).attempt s.params s.filter i x st (sentFrame (s.can i) ((s.can i).mb x) b6 b7) o := by
  simp [AgentStep.perform, attemptStep]

@[simp] theorem perform_txAbort_can (i : Inst) (x : MbIx) (s : State) :
    ((AgentStep.txAbort i x).perform s).can i = (s.can i).setMb x ((s.can i).mb x).aborted := by
  simp [AgentStep.perform]

@[simp] theorem perform_rxFrame_can (i : Inst) (f : Frame) (d : RxDraws) (s : State) :
    ((AgentStep.rxFrame i f d).perform s).can i = (s.can i).offer s.params s.filter i f d := by
  simp [AgentStep.perform]

@[simp] theorem perform_errorEvent_can (i : Inst) (c : Option ErrorCode) (d : ErrorDraws) (s : State) :
    ((AgentStep.errorEvent i c d).perform s).can i = (s.can i).errorEvent c d := by
  simp [AgentStep.perform]

@[simp] theorem perform_wakeUp_can (i : Inst) (s : State) :
    ((AgentStep.wakeUp i).perform s).can i = (s.can i).wake := by
  simp [AgentStep.perform]

@[simp] theorem perform_busOffRecovery_can (i : Inst) (s : State) :
    ((AgentStep.busOffRecovery i).perform s).can i = (s.can i).recoverBusOff := by
  simp [AgentStep.perform]

/-! ## Everything reception and an attempt can do to an instance -/

/-- An offer clears LEC, and queues the frame in at most one FIFO (R312, R404). -/
theorem Controller.offer_cases (c : Controller) (p : Params) (fl : FilterBlock) (i : Inst) (f : Frame) (d : RxDraws) :
    c.offer p fl i f d = c.clearLec ∨
      ∃ x n, accepting p fl i f d.pick = some (x, n) ∧
        c.offer p fl i f d = c.clearLec.setFifo x ((c.fifo x).enqueue c.mcr.rflm (entryOf f n d)) := by
  unfold Controller.offer
  cases h : accepting p fl i f d.pick with
  | none => exact .inl rfl
  | some y => exact .inr ⟨y.1, y.2, rfl, rfl⟩

@[simp] theorem Controller.offer_mcr (c : Controller) (p : Params) (fl : FilterBlock) (i : Inst) (f : Frame)
    (d : RxDraws) : (c.offer p fl i f d).mcr = c.mcr := by
  rcases c.offer_cases p fl i f d with h | ⟨x, n, _, h⟩ <;> rw [h] <;> simp [Controller.clearLec]

@[simp] theorem Controller.offer_mode (c : Controller) (p : Params) (fl : FilterBlock) (i : Inst) (f : Frame)
    (d : RxDraws) : (c.offer p fl i f d).mode = c.mode := by
  rcases c.offer_cases p fl i f d with h | ⟨x, n, _, h⟩ <;> rw [h] <;> simp [Controller.clearLec]

@[simp] theorem Controller.offer_erri (c : Controller) (p : Params) (fl : FilterBlock) (i : Inst) (f : Frame)
    (d : RxDraws) : (c.offer p fl i f d).erri = c.erri := by
  rcases c.offer_cases p fl i f d with h | ⟨x, n, _, h⟩ <;> rw [h] <;> simp [Controller.clearLec]

@[simp] theorem Controller.offer_wkui (c : Controller) (p : Params) (fl : FilterBlock) (i : Inst) (f : Frame)
    (d : RxDraws) : (c.offer p fl i f d).wkui = c.wkui := by
  rcases c.offer_cases p fl i f d with h | ⟨x, n, _, h⟩ <;> rw [h] <;> simp [Controller.clearLec]

@[simp] theorem Controller.offer_slaki (c : Controller) (p : Params) (fl : FilterBlock) (i : Inst) (f : Frame)
    (d : RxDraws) : (c.offer p fl i f d).slaki = c.slaki := by
  rcases c.offer_cases p fl i f d with h | ⟨x, n, _, h⟩ <;> rw [h] <;> simp [Controller.clearLec]

@[simp] theorem Controller.offer_ier (c : Controller) (p : Params) (fl : FilterBlock) (i : Inst) (f : Frame)
    (d : RxDraws) : (c.offer p fl i f d).ier = c.ier := by
  rcases c.offer_cases p fl i f d with h | ⟨x, n, _, h⟩ <;> rw [h] <;> simp [Controller.clearLec]

@[simp] theorem Controller.offer_btr (c : Controller) (p : Params) (fl : FilterBlock) (i : Inst) (f : Frame)
    (d : RxDraws) : (c.offer p fl i f d).btr = c.btr := by
  rcases c.offer_cases p fl i f d with h | ⟨x, n, _, h⟩ <;> rw [h] <;> simp [Controller.clearLec]

@[simp] theorem Controller.offer_boffInitSeen (c : Controller) (p : Params) (fl : FilterBlock) (i : Inst) (f : Frame)
    (d : RxDraws) : (c.offer p fl i f d).boffInitSeen = c.boffInitSeen := by
  rcases c.offer_cases p fl i f d with h | ⟨x, n, _, h⟩ <;> rw [h] <;> simp [Controller.clearLec]

@[simp] theorem Controller.offer_resetAsserted (c : Controller) (p : Params) (fl : FilterBlock) (i : Inst) (f : Frame)
    (d : RxDraws) : (c.offer p fl i f d).resetAsserted = c.resetAsserted := by
  rcases c.offer_cases p fl i f d with h | ⟨x, n, _, h⟩ <;> rw [h] <;> simp [Controller.clearLec]

@[simp] theorem Controller.offer_mb (c : Controller) (p : Params) (fl : FilterBlock) (i : Inst) (f : Frame)
    (d : RxDraws) (x : MbIx) : (c.offer p fl i f d).mb x = c.mb x := by
  rcases c.offer_cases p fl i f d with h | ⟨y, n, _, h⟩ <;> rw [h] <;> simp [Controller.clearLec]

@[simp] theorem Controller.offer_esr (c : Controller) (p : Params) (fl : FilterBlock) (i : Inst) (f : Frame)
    (d : RxDraws) : (c.offer p fl i f d).esr = { c.esr with lec := 0 } := by
  rcases c.offer_cases p fl i f d with h | ⟨y, n, _, h⟩ <;> rw [h] <;> simp [Controller.clearLec]

/-! ## Fields no agent changes -/

/-- No agent steps the reset line (R500). -/
@[simp] theorem agentStep_resetAsserted (a : AgentStep) (s : State) (i : Inst) :
    ((agentStep a s).can i).resetAsserted = (s.can i).resetAsserted := by
  refine agentStep_keeps (fun c d => d.resetAsserted = c.resetAsserted) (fun _ => rfl) ?_ a s i
  intro a s he
  cases a with
  | modeFsm i =>
    rw [AgentStep.inst, perform_modeFsm_can]
    cases modeTarget (s.can i) with
    | none => rfl
    | some t => cases t <;> rfl
  | txAttempt i x st b6 b7 o =>
    rw [AgentStep.inst, perform_txAttempt_can]
    cases o <;> simp [Controller.attempt, Controller.clearLec, Controller.errorEvent]
    split <;> simp
  | txAbort i x => simp [AgentStep.inst]
  | rxFrame i f d => simp [AgentStep.inst]
  | errorEvent i c d => simp [AgentStep.inst, Controller.errorEvent]
  | wakeUp i => simp [AgentStep.inst, Controller.wake]
  | busOffRecovery i => simp [AgentStep.inst, Controller.recoverBusOff]

/-- No agent writes IER. -/
@[simp] theorem agentStep_ier (a : AgentStep) (s : State) (i : Inst) :
    ((agentStep a s).can i).ier = (s.can i).ier := by
  refine agentStep_keeps (fun c d => d.ier = c.ier) (fun _ => rfl) ?_ a s i
  intro a s he
  cases a with
  | modeFsm i =>
    rw [AgentStep.inst, perform_modeFsm_can]
    cases modeTarget (s.can i) with
    | none => rfl
    | some t => cases t <;> rfl
  | txAttempt i x st b6 b7 o =>
    rw [AgentStep.inst, perform_txAttempt_can]
    cases o <;> simp [Controller.attempt, Controller.clearLec, Controller.errorEvent]
    split <;> simp
  | txAbort i x => simp [AgentStep.inst]
  | rxFrame i f d => simp [AgentStep.inst]
  | errorEvent i c d => simp [AgentStep.inst, Controller.errorEvent]
  | wakeUp i => simp [AgentStep.inst, Controller.wake]
  | busOffRecovery i => simp [AgentStep.inst, Controller.recoverBusOff]

/-- No agent writes BTR. -/
@[simp] theorem agentStep_btr (a : AgentStep) (s : State) (i : Inst) :
    ((agentStep a s).can i).btr = (s.can i).btr := by
  refine agentStep_keeps (fun c d => d.btr = c.btr) (fun _ => rfl) ?_ a s i
  intro a s he
  cases a with
  | modeFsm i =>
    rw [AgentStep.inst, perform_modeFsm_can]
    cases modeTarget (s.can i) with
    | none => rfl
    | some t => cases t <;> rfl
  | txAttempt i x st b6 b7 o =>
    rw [AgentStep.inst, perform_txAttempt_can]
    cases o <;> simp [Controller.attempt, Controller.clearLec, Controller.errorEvent]
    split <;> simp
  | txAbort i x => simp [AgentStep.inst]
  | rxFrame i f d => simp [AgentStep.inst]
  | errorEvent i c d => simp [AgentStep.inst, Controller.errorEvent]
  | wakeUp i => simp [AgentStep.inst, Controller.wake]
  | busOffRecovery i => simp [AgentStep.inst, Controller.recoverBusOff]

/-- No agent writes the initialization request (R33). -/
@[simp] theorem agentStep_inrq (a : AgentStep) (s : State) (i : Inst) :
    ((agentStep a s).can i).mcr.inrq = (s.can i).mcr.inrq := by
  refine agentStep_keeps (fun c d => d.mcr.inrq = c.mcr.inrq) (fun _ => rfl) ?_ a s i
  intro a s he
  cases a with
  | modeFsm i =>
    rw [AgentStep.inst, perform_modeFsm_can]
    cases modeTarget (s.can i) with
    | none => rfl
    | some t => cases t <;> rfl
  | txAttempt i x st b6 b7 o =>
    rw [AgentStep.inst, perform_txAttempt_can]
    cases o <;> simp [Controller.attempt, Controller.clearLec, Controller.errorEvent]
    split <;> simp
  | txAbort i x => simp [AgentStep.inst]
  | rxFrame i f d => simp [AgentStep.inst]
  | errorEvent i c d => simp [AgentStep.inst, Controller.errorEvent]
  | wakeUp i => simp [AgentStep.inst, Controller.wake]
  | busOffRecovery i => simp [AgentStep.inst, Controller.recoverBusOff]

/-! ## The gap between two accesses -/

/-- A property of states that every agent step keeps holds after a list of them. -/
theorem agentSteps_keeps (P : State → Prop) (hstep : ∀ a s, P s → P (agentStep a s)) (l : List AgentStep) :
    ∀ s, P s → P (agentSteps l s) := by
  induction l with
  | nil => intro s h; exact h
  | cons a l ih => intro s h; exact ih _ (hstep a s h)

/-- A property of states that every agent step keeps, and that does not look at the schedule, holds after a gap. -/
theorem afterGap_keeps (P : State → Prop) (hgaps : ∀ s g, P s → P { s with gaps := g })
    (hstep : ∀ a s, P s → P (agentStep a s)) (s : State) (h : P s) : P (afterGap s) := by
  unfold afterGap
  split
  · exact h
  · exact agentSteps_keeps P hstep _ _ (hgaps _ _ h)

@[simp] theorem afterGap_params (s : State) : (afterGap s).params = s.params :=
  afterGap_keeps (fun t => t.params = s.params) (fun _ _ h => h) (fun a t h => by simpa using h) s rfl

@[simp] theorem afterGap_filter (s : State) : (afterGap s).filter = s.filter :=
  afterGap_keeps (fun t => t.filter = s.filter) (fun _ _ h => h) (fun a t h => by simpa using h) s rfl

@[simp] theorem afterGap_program (s : State) : (afterGap s).program = s.program :=
  afterGap_keeps (fun t => t.program = s.program) (fun _ _ h => h) (fun a t h => by simpa using h) s rfl

@[simp] theorem afterGap_call (s : State) : (afterGap s).call = s.call :=
  afterGap_keeps (fun t => t.call = s.call) (fun _ _ h => h) (fun a t h => by simpa using h) s rfl

@[simp] theorem afterGap_draws (s : State) : (afterGap s).draws = s.draws :=
  afterGap_keeps (fun t => t.draws = s.draws) (fun _ _ h => h) (fun a t h => by simpa using h) s rfl

@[simp] theorem afterGap_result (s : State) : (afterGap s).result = s.result :=
  afterGap_keeps (fun t => t.result = s.result) (fun _ _ h => h) (fun a t h => by simpa using h) s rfl

@[simp] theorem afterGap_resetAsserted (s : State) (i : Inst) : ((afterGap s).can i).resetAsserted = (s.can i).resetAsserted :=
  afterGap_keeps (fun t => (t.can i).resetAsserted = (s.can i).resetAsserted) (fun _ _ h => by simpa using h)
    (fun a t h => by simpa using h) s rfl

@[simp] theorem afterGap_ier (s : State) (i : Inst) : ((afterGap s).can i).ier = (s.can i).ier :=
  afterGap_keeps (fun t => (t.can i).ier = (s.can i).ier) (fun _ _ h => by simpa using h)
    (fun a t h => by simpa using h) s rfl

@[simp] theorem afterGap_btr (s : State) (i : Inst) : ((afterGap s).can i).btr = (s.can i).btr :=
  afterGap_keeps (fun t => (t.can i).btr = (s.can i).btr) (fun _ _ h => by simpa using h)
    (fun a t h => by simpa using h) s rfl

@[simp] theorem afterGap_inrq (s : State) (i : Inst) : ((afterGap s).can i).mcr.inrq = (s.can i).mcr.inrq :=
  afterGap_keeps (fun t => (t.can i).mcr.inrq = (s.can i).mcr.inrq) (fun _ _ h => by simpa using h)
    (fun a t h => by simpa using h) s rfl

/-- A register that is accessible stays so over a gap. -/
@[simp] theorem afterGap_accessible (s : State) (i : Inst) (r : Reg) :
    accessible (afterGap s) i r = accessible s i r := by
  simp [accessible]

@[simp] theorem accessible_draws (s : State) (n : Nat) (i : Inst) (r : Reg) :
    accessible { s with draws := n } i r = accessible s i r := by
  simp [accessible]

/-- With the schedule ended a gap changes nothing. -/
theorem afterGap_of_ended (s : State) (h : s.gaps = []) : afterGap s = s := by
  simp [afterGap, h]

/-- The state after a gap, when the schedule has ended before it (log 12). -/
@[simp] theorem afterGap_gaps_of_ended (s : State) (h : s.gaps = []) : (afterGap s).gaps = [] := by
  rw [afterGap_of_ended s h, h]

end Sys2Proof.Machine
end

