-- ==== Sys2Proof/Laws/Keeps.lean ====
section
/-! SUPPORT. One induction over everything a host request can do: a property that the draws, the gaps, the register
writes and the reset calls keep is kept by every instruction and every step. -/

namespace Sys2Proof.Machine

/-- What the pieces of a host program keep. -/
structure KeptByAccesses (I : State → Prop) : Prop where
  draws : ∀ s n, I s → I (s.takeDraws n)
  returning : ∀ s r, I s → I (s.returning r)
  gap : ∀ s, I s → I (afterGap s)
  write : ∀ a s i v r s', I s → writeRule a s i v r = .ok s' → I s'

variable {I : State → Prop}

theorem KeptByAccesses.regRead (k : KeptByAccesses I) (i : Inst) (r : Reg) : (regRead i r).Keeps I := by
  constructor
  intro s w s' hs h
  obtain ⟨_, _, rfl⟩ := regRead_cases h
  exact k.draws s 1 hs

theorem KeptByAccesses.regWrite (k : KeptByAccesses I) (i : Inst) (r : Reg) (v : BusWord) :
    (regWrite i r v).Keeps I := by
  constructor
  intro s w s' hs h
  obtain ⟨_, hw⟩ := regWrite_cases h
  exact k.write _ s i v r s' hs hw

theorem KeptByAccesses.gap' (k : KeptByAccesses I) : Prog.Keeps I Machine.gap := by
  constructor
  intro s w s' hs h
  cases h
  exact k.gap s hs

theorem KeptByAccesses.takeDraw (k : KeptByAccesses I) : Prog.Keeps I Machine.takeDraw := by
  constructor
  intro s w s' hs h
  cases h
  exact k.draws s 1 hs

theorem KeptByAccesses.thenRead (k : KeptByAccesses I) (i : Inst) (r : Reg) : (atOnce.thenRead i r).Keeps I :=
  k.gap'.bind fun _ => k.regRead i r

theorem KeptByAccesses.thenWrite (k : KeptByAccesses I) (i : Inst) (r : Reg) (v : BusWord) :
    (atOnce.thenWrite i r v).Keeps I :=
  k.gap'.bind fun _ => k.regWrite i r v

theorem KeptByAccesses.rmw (k : KeptByAccesses I) (i : Inst) (r : Reg) (clr set : Word) :
    (atOnce.rmw i r clr set).Keeps I :=
  (k.regRead i r).bind fun _ => k.thenWrite i r _

theorem KeptByAccesses.thenRmw (k : KeptByAccesses I) (i : Inst) (r : Reg) (clr set : Word) :
    (atOnce.thenRmw i r clr set).Keeps I :=
  k.gap'.bind fun _ => k.rmw i r clr set

theorem KeptByAccesses.pollInak (k : KeptByAccesses I) (i : Inst) (want : Bool) :
    ∀ n, (pollInak i want n).Keeps I
  | 0 => .pure _
  | n + 1 => by
    refine Prog.Keeps.bind ⟨fun s b t hs h => by cases h; exact hs⟩ fun ended => ?_
    refine k.gap'.bind fun _ => (k.regRead i .msr).bind fun v => ?_
    split
    · exact .pure _
    · split
      · exact Prog.Keeps.bind ⟨fun s b t hs h => by cases h; exact k.draws s n hs⟩ fun _ => .pure _
      · exact k.pollInak i want n

/-- Reading the parameters changes nothing. -/
theorem Prog.Keeps.params : Prog.Keeps I (atOnce.params) := by
  constructor
  intro s b t hs h
  cases h
  exact hs

/-- A blocking call (R217, R218): a read-modify-write, then the polls. -/
theorem KeptByAccesses.blocking (k : KeptByAccesses I) (i : Inst) (want : Bool) {p : Prog Unit} (hp : p.Keeps I) :
    Prog.Keeps I (do
      p
      let q ← atOnce.params
      atOnce.poll i want q.pollBound) :=
  hp.bind fun _ => Prog.Keeps.params.bind fun q => k.pollInak i want q.pollBound

theorem KeptByAccesses.thenBankBit (k : KeptByAccesses I) (i : Inst) (r : Reg) (m : Word) (on : Bool) :
    (thenBankBit atOnce i r m on).Keeps I := by
  unfold Machine.thenBankBit
  split <;> exact k.thenRmw i r _ _

theorem KeptByAccesses.configureBank (k : KeptByAccesses I) (i : Inst) (b : Fin 28) (scale32 listMode : Bool)
    (reg1 reg2 : Word) (x : FifoIx) (enable : Bool) :
    (configureBank atOnce i b scale32 listMode reg1 reg2 x enable).Keeps I := by
  refine (k.rmw ..).bind fun _ => (k.thenRmw ..).bind fun _ => (k.thenBankBit ..).bind fun _ =>
    (k.thenBankBit ..).bind fun _ => (k.thenBankBit ..).bind fun _ => (k.thenWrite ..).bind fun _ =>
    (k.thenWrite ..).bind fun _ => ?_
  split
  · exact (k.thenRmw ..).bind fun _ => k.thenRmw ..
  · exact k.thenRmw ..

theorem KeptByAccesses.configureFilter (k : KeptByAccesses I) (self : Instr) (i : Inst) (bank : Nat)
    (scale32 listMode : Bool) (reg1 reg2 : Word) (fifoId : Nat) (enable : Bool) :
    (configureFilter atOnce self i bank scale32 listMode reg1 reg2 fifoId enable).Keeps I := by
  refine Prog.Keeps.params.bind fun s => ?_
  split
  · exact .fault _
  · exact .fault _
  · exact k.configureBank ..

theorem KeptByAccesses.fillMailbox (k : KeptByAccesses I) (i : Inst) (x : MbIx) (id : Word) (ext rtr : Bool)
    (length : Nat) (data : List Byte) : (fillMailbox atOnce i x id ext rtr length data).Keeps I := by
  refine (k.thenWrite ..).bind fun _ => ?_
  have tail : Prog.Keeps I (do
      atOnce.thenRmw i (.tdtr x) 0xF (BitVec.ofNat 32 (length % 16))
      let lo ← Machine.takeDraw
      let hi ← Machine.takeDraw
      atOnce.thenWrite i (.tdlr x) (payloadWord length data 0 lo)
      atOnce.thenWrite i (.tdhr x) (payloadWord length data 4 hi)
      atOnce.thenRmw i (.tir x) 0 0x1) :=
    (k.thenRmw ..).bind fun _ => k.takeDraw.bind fun _ => k.takeDraw.bind fun _ => (k.thenWrite ..).bind fun _ =>
      (k.thenWrite ..).bind fun _ => k.thenRmw ..
  split
  · exact (k.thenRmw ..).bind fun _ => tail
  · exact tail

theorem KeptByAccesses.transmitProg (k : KeptByAccesses I) (i : Inst) (id : Word) (ext rtr : Bool)
    (length : Nat) (data : List Byte) : (transmitProg atOnce i id ext rtr length data).Keeps I := by
  refine (k.regRead ..).bind fun t => ?_
  split
  · exact .pure _
  · exact (k.fillMailbox ..).bind fun _ => .pure _

theorem KeptByAccesses.receiveProg (k : KeptByAccesses I) (i : Inst) (x : FifoIx) (autoRelease : Bool) :
    (receiveProg atOnce i x autoRelease).Keeps I := by
  refine (k.regRead ..).bind fun r => (k.thenRead ..).bind fun t => (k.thenRead ..).bind fun lo =>
    (k.thenRead ..).bind fun hi => ?_
  split
  · exact (k.thenRmw ..).bind fun _ => .pure _
  · exact .pure _

/-- An outcome keeps what its program keeps. -/
theorem KeptByAccesses.finish (k : KeptByAccesses I) {p : Prog Result} (hp : p.Keeps I) {s t : State} (hs : I s)
    (h : finish p s = .next t) : I t := by
  obtain ⟨r, s', h1, rfl⟩ := finish_next h
  exact k.returning _ _ (hp.kept s r s' hs h1)

theorem KeptByAccesses.readInstr (k : KeptByAccesses I) {i : Inst} {r : Reg} {s t : State} (hs : I s)
    (h : readInstr i r s = .next t) : I t :=
  k.finish ((k.regRead i r).bind fun _ => .pure _) hs h

theorem KeptByAccesses.writeInstr (k : KeptByAccesses I) {i : Inst} {r : Reg} {v : Word} {s t : State} (hs : I s)
    (h : writeInstr i r v s = .next t) : I t :=
  k.finish ((k.regWrite i r (.ofWord v)).bind fun _ => .pure _) hs h

theorem KeptByAccesses.runUnit (k : KeptByAccesses I) {p : Prog Unit} (hp : p.Keeps I) {s t : State} (hs : I s)
    (h : runUnit p s = .next t) : I t :=
  k.finish (hp.bind fun _ => .pure _) hs h

theorem KeptByAccesses.runFlag (k : KeptByAccesses I) {p : Prog Bool} (hp : p.Keeps I) {s t : State} (hs : I s)
    (h : runFlag p s = .next t) : I t :=
  k.finish (hp.bind fun _ => .pure _) hs h

/-- Every instruction keeps what accesses keep; `op reset` needs its own two calls to keep it. -/
theorem KeptByAccesses.exec (k : KeptByAccesses I) {ins : Instr} {s t : State}
    (hreset : ∀ i, ins = .opReset i → (resetProg atOnce i).Keeps I) (hs : I s) (h : exec ins s = .next t) : I t := by
  cases ins with
  | opReset i => exact k.runUnit (hreset i rfl) hs h
  | opEnterInit i => exact k.runUnit (k.rmw ..) hs h
  | opLeaveInit i => exact k.runUnit (k.rmw ..) hs h
  | opEnterSleep i => exact k.runUnit (k.rmw ..) hs h
  | opLeaveSleep i => exact k.runUnit (k.rmw ..) hs h
  | opIsInit i => exact k.runFlag ((k.regRead ..).bind fun _ => .pure _) hs h
  | opIsSleep i => exact k.runFlag ((k.regRead ..).bind fun _ => .pure _) hs h
  | opEnterInitBlocking i => exact k.runFlag (k.blocking i true (k.rmw ..)) hs h
  | opLeaveInitBlocking i => exact k.runFlag (k.blocking i false (k.rmw ..)) hs h
  | opComputeTiming rate sp pclk => exact k.finish (.pure _) hs h
  | opApplyTiming i t =>
    refine k.runUnit ?_ hs h
    unfold applyTimingProg
    split
    · exact k.rmw ..
    · exact .fault _
  | opGetEffectiveBitrate t pclk => exact k.finish (.pure _) hs h
  | opConfigureFilter i bank sc lm r1 r2 fifoId en => exact k.runUnit (k.configureFilter ..) hs h
  | opFilterIdMask16 i bank a b c d fifoId en => exact k.runUnit (k.configureFilter ..) hs h
  | opFilterIdMask32 i bank a b fifoId en =>
    exact k.runUnit (Prog.Keeps.params.bind fun _ => k.configureFilter ..) hs h
  | opFilterIdList16 i bank a b c d fifoId en => exact k.runUnit (k.configureFilter ..) hs h
  | opFilterIdList32 i bank a b fifoId en =>
    exact k.runUnit (Prog.Keeps.params.bind fun _ => k.configureFilter ..) hs h
  | opGetEmptyMailbox i => exact k.finish ((k.regRead ..).bind fun _ => .pure _) hs h
  | opTransmit i id ext rtr length data => exact k.finish ((k.transmitProg ..).bind fun _ => .pure _) hs h
  | opAvailableMailbox i => exact k.finish ((k.regRead ..).bind fun _ => .pure _) hs h
  | opReceive i fifoId autoRelease =>
    refine k.finish (p := receiveCall atOnce i fifoId autoRelease) ?_ hs h
    unfold receiveCall
    split
    · exact .fault _
    · exact (k.receiveProg ..).bind fun _ => .pure _
  | opReleaseFifo i fifoId =>
    refine k.runUnit (p := releaseFifoProg atOnce i fifoId) ?_ hs h
    unfold releaseFifoProg
    split
    · exact .fault _
    · exact k.rmw ..
  | _ => first | exact k.readInstr hs h | exact k.writeInstr hs h

end Sys2Proof.Machine
end

