-- ==== Sys2Proof/Laws/Registers.lean ====
section
/-! SUPPORT. What each bit and field of a register's word is, said once (the read rules of 40_mode_controller.md to
44_receive.md and 60_exceptions.md): the defined bits, whatever the draw. -/

namespace Sys2Proof.Machine

@[simp] theorem readMcr_bit0 (c : Controller) (d : Word) : (readMcr c d).bit 0 = c.mcr.inrq := by
  simp [readMcr, BusWord.bit, -BitVec.getLsbD_eq_getElem]

@[simp] theorem readMcr_bit1 (c : Controller) (d : Word) : (readMcr c d).bit 1 = c.mcr.sleep := by
  simp [readMcr, BusWord.bit, -BitVec.getLsbD_eq_getElem]

@[simp] theorem readMcr_bit2 (c : Controller) (d : Word) : (readMcr c d).bit 2 = c.mcr.txfp := by
  simp [readMcr, BusWord.bit, -BitVec.getLsbD_eq_getElem]

@[simp] theorem readMcr_bit3 (c : Controller) (d : Word) : (readMcr c d).bit 3 = c.mcr.rflm := by
  simp [readMcr, BusWord.bit, -BitVec.getLsbD_eq_getElem]

@[simp] theorem readMcr_bit4 (c : Controller) (d : Word) : (readMcr c d).bit 4 = c.mcr.nart := by
  simp [readMcr, BusWord.bit, -BitVec.getLsbD_eq_getElem]

@[simp] theorem readMcr_bit5 (c : Controller) (d : Word) : (readMcr c d).bit 5 = c.mcr.awum := by
  simp [readMcr, BusWord.bit, -BitVec.getLsbD_eq_getElem]

@[simp] theorem readMcr_bit6 (c : Controller) (d : Word) : (readMcr c d).bit 6 = c.mcr.abom := by
  simp [readMcr, BusWord.bit, -BitVec.getLsbD_eq_getElem]

@[simp] theorem readMcr_bit7 (c : Controller) (d : Word) : (readMcr c d).bit 7 = c.mcr.ttcm := by
  simp [readMcr, BusWord.bit, -BitVec.getLsbD_eq_getElem]

@[simp] theorem readMcr_bit16 (c : Controller) (d : Word) : (readMcr c d).bit 16 = c.mcr.dbf := by
  simp [readMcr, BusWord.bit, -BitVec.getLsbD_eq_getElem]

@[simp] theorem readMcr_bit15 (c : Controller) (d : Word) : (readMcr c d).bit 15 = false := by
  simp [readMcr, BusWord.bit, -BitVec.getLsbD_eq_getElem]

@[simp] theorem readMsr_bit0 (c : Controller) (d : Word) : (readMsr c d).bit 0 = c.inak := by
  simp [readMsr, BusWord.bit, -BitVec.getLsbD_eq_getElem]

@[simp] theorem readMsr_bit1 (c : Controller) (d : Word) : (readMsr c d).bit 1 = c.slak := by
  simp [readMsr, BusWord.bit, -BitVec.getLsbD_eq_getElem]

@[simp] theorem readMsr_bit2 (c : Controller) (d : Word) : (readMsr c d).bit 2 = c.erri := by
  simp [readMsr, BusWord.bit, -BitVec.getLsbD_eq_getElem]

@[simp] theorem readMsr_bit3 (c : Controller) (d : Word) : (readMsr c d).bit 3 = c.wkui := by
  simp [readMsr, BusWord.bit, -BitVec.getLsbD_eq_getElem]

@[simp] theorem readMsr_bit4 (c : Controller) (d : Word) : (readMsr c d).bit 4 = c.slaki := by
  simp [readMsr, BusWord.bit, -BitVec.getLsbD_eq_getElem]

@[simp] theorem readIer_bit0 (c : Controller) (d : Word) : (readIer c d).bit 0 = c.ier.tmeie := by
  simp [readIer, BusWord.bit, -BitVec.getLsbD_eq_getElem]

@[simp] theorem readIer_bit1 (c : Controller) (d : Word) : (readIer c d).bit 1 = c.ier.fmpie0 := by
  simp [readIer, BusWord.bit, -BitVec.getLsbD_eq_getElem]

@[simp] theorem readIer_bit2 (c : Controller) (d : Word) : (readIer c d).bit 2 = c.ier.ffie0 := by
  simp [readIer, BusWord.bit, -BitVec.getLsbD_eq_getElem]

@[simp] theorem readIer_bit3 (c : Controller) (d : Word) : (readIer c d).bit 3 = c.ier.fovie0 := by
  simp [readIer, BusWord.bit, -BitVec.getLsbD_eq_getElem]

@[simp] theorem readIer_bit4 (c : Controller) (d : Word) : (readIer c d).bit 4 = c.ier.fmpie1 := by
  simp [readIer, BusWord.bit, -BitVec.getLsbD_eq_getElem]

@[simp] theorem readIer_bit5 (c : Controller) (d : Word) : (readIer c d).bit 5 = c.ier.ffie1 := by
  simp [readIer, BusWord.bit, -BitVec.getLsbD_eq_getElem]

@[simp] theorem readIer_bit6 (c : Controller) (d : Word) : (readIer c d).bit 6 = c.ier.fovie1 := by
  simp [readIer, BusWord.bit, -BitVec.getLsbD_eq_getElem]

@[simp] theorem readIer_bit8 (c : Controller) (d : Word) : (readIer c d).bit 8 = c.ier.ewgie := by
  simp [readIer, BusWord.bit, -BitVec.getLsbD_eq_getElem]

@[simp] theorem readIer_bit9 (c : Controller) (d : Word) : (readIer c d).bit 9 = c.ier.epvie := by
  simp [readIer, BusWord.bit, -BitVec.getLsbD_eq_getElem]

@[simp] theorem readIer_bit10 (c : Controller) (d : Word) : (readIer c d).bit 10 = c.ier.bofie := by
  simp [readIer, BusWord.bit, -BitVec.getLsbD_eq_getElem]

@[simp] theorem readIer_bit11 (c : Controller) (d : Word) : (readIer c d).bit 11 = c.ier.lecie := by
  simp [readIer, BusWord.bit, -BitVec.getLsbD_eq_getElem]

@[simp] theorem readIer_bit15 (c : Controller) (d : Word) : (readIer c d).bit 15 = c.ier.errie := by
  simp [readIer, BusWord.bit, -BitVec.getLsbD_eq_getElem]

@[simp] theorem readIer_bit16 (c : Controller) (d : Word) : (readIer c d).bit 16 = c.ier.wkuie := by
  simp [readIer, BusWord.bit, -BitVec.getLsbD_eq_getElem]

@[simp] theorem readIer_bit17 (c : Controller) (d : Word) : (readIer c d).bit 17 = c.ier.slkie := by
  simp [readIer, BusWord.bit, -BitVec.getLsbD_eq_getElem]

@[simp] theorem readTsr_bit0 (c : Controller) (d : Word) : (readTsr c d).bit 0 = c.mb0.rqcp := by
  simp [readTsr, Mailbox.tsrBits, BusWord.bit, -BitVec.getLsbD_eq_getElem]

@[simp] theorem readTsr_bit1 (c : Controller) (d : Word) : (readTsr c d).bit 1 = c.mb0.txok := by
  simp [readTsr, Mailbox.tsrBits, BusWord.bit, -BitVec.getLsbD_eq_getElem]

@[simp] theorem readTsr_bit2 (c : Controller) (d : Word) : (readTsr c d).bit 2 = c.mb0.alst := by
  simp [readTsr, Mailbox.tsrBits, BusWord.bit, -BitVec.getLsbD_eq_getElem]

@[simp] theorem readTsr_bit3 (c : Controller) (d : Word) : (readTsr c d).bit 3 = c.mb0.terr := by
  simp [readTsr, Mailbox.tsrBits, BusWord.bit, -BitVec.getLsbD_eq_getElem]

@[simp] theorem readTsr_bit7 (c : Controller) (d : Word) : (readTsr c d).bit 7 = c.mb0.abrq := by
  simp [readTsr, Mailbox.tsrBits, BusWord.bit, -BitVec.getLsbD_eq_getElem]

@[simp] theorem readTsr_bit26 (c : Controller) (d : Word) : (readTsr c d).bit 26 = (!c.mb0.pending) := by
  simp [readTsr, Mailbox.tsrBits, BusWord.bit, -BitVec.getLsbD_eq_getElem]

@[simp] theorem readTsr_bit8 (c : Controller) (d : Word) : (readTsr c d).bit 8 = c.mb1.rqcp := by
  simp [readTsr, Mailbox.tsrBits, BusWord.bit, -BitVec.getLsbD_eq_getElem]

@[simp] theorem readTsr_bit9 (c : Controller) (d : Word) : (readTsr c d).bit 9 = c.mb1.txok := by
  simp [readTsr, Mailbox.tsrBits, BusWord.bit, -BitVec.getLsbD_eq_getElem]

@[simp] theorem readTsr_bit10 (c : Controller) (d : Word) : (readTsr c d).bit 10 = c.mb1.alst := by
  simp [readTsr, Mailbox.tsrBits, BusWord.bit, -BitVec.getLsbD_eq_getElem]

@[simp] theorem readTsr_bit11 (c : Controller) (d : Word) : (readTsr c d).bit 11 = c.mb1.terr := by
  simp [readTsr, Mailbox.tsrBits, BusWord.bit, -BitVec.getLsbD_eq_getElem]

@[simp] theorem readTsr_bit15 (c : Controller) (d : Word) : (readTsr c d).bit 15 = c.mb1.abrq := by
  simp [readTsr, Mailbox.tsrBits, BusWord.bit, -BitVec.getLsbD_eq_getElem]

@[simp] theorem readTsr_bit27 (c : Controller) (d : Word) : (readTsr c d).bit 27 = (!c.mb1.pending) := by
  simp [readTsr, Mailbox.tsrBits, BusWord.bit, -BitVec.getLsbD_eq_getElem]

@[simp] theorem readTsr_bit16 (c : Controller) (d : Word) : (readTsr c d).bit 16 = c.mb2.rqcp := by
  simp [readTsr, Mailbox.tsrBits, BusWord.bit, -BitVec.getLsbD_eq_getElem]

@[simp] theorem readTsr_bit17 (c : Controller) (d : Word) : (readTsr c d).bit 17 = c.mb2.txok := by
  simp [readTsr, Mailbox.tsrBits, BusWord.bit, -BitVec.getLsbD_eq_getElem]

@[simp] theorem readTsr_bit18 (c : Controller) (d : Word) : (readTsr c d).bit 18 = c.mb2.alst := by
  simp [readTsr, Mailbox.tsrBits, BusWord.bit, -BitVec.getLsbD_eq_getElem]

@[simp] theorem readTsr_bit19 (c : Controller) (d : Word) : (readTsr c d).bit 19 = c.mb2.terr := by
  simp [readTsr, Mailbox.tsrBits, BusWord.bit, -BitVec.getLsbD_eq_getElem]

@[simp] theorem readTsr_bit23 (c : Controller) (d : Word) : (readTsr c d).bit 23 = c.mb2.abrq := by
  simp [readTsr, Mailbox.tsrBits, BusWord.bit, -BitVec.getLsbD_eq_getElem]

@[simp] theorem readTsr_bit28 (c : Controller) (d : Word) : (readTsr c d).bit 28 = (!c.mb2.pending) := by
  simp [readTsr, Mailbox.tsrBits, BusWord.bit, -BitVec.getLsbD_eq_getElem]

@[simp] theorem readEsr_bit0 (c : Controller) (d : Word) : (readEsr c d).bit 0 = c.esr.ewgf := by
  simp [readEsr, BusWord.bit, -BitVec.getLsbD_eq_getElem]

@[simp] theorem readEsr_bit1 (c : Controller) (d : Word) : (readEsr c d).bit 1 = c.esr.epvf := by
  simp [readEsr, BusWord.bit, -BitVec.getLsbD_eq_getElem]

@[simp] theorem readEsr_bit2 (c : Controller) (d : Word) : (readEsr c d).bit 2 = c.esr.boff := by
  simp [readEsr, BusWord.bit, -BitVec.getLsbD_eq_getElem]

@[simp] theorem readBtr_bit30 (c : Controller) (d : Word) : (readBtr c d).bit 30 = c.btr.lbkm := by
  simp [readBtr, BusWord.bit, -BitVec.getLsbD_eq_getElem]

@[simp] theorem readBtr_bit31 (c : Controller) (d : Word) : (readBtr c d).bit 31 = c.btr.silm := by
  simp [readBtr, BusWord.bit, -BitVec.getLsbD_eq_getElem]

@[simp] theorem readBtr_field_0_10 (c : Controller) (d : Word) : (readBtr c d).field 0 10 = c.btr.brp := by
  refine BusWord.field_eq_of_bits _ _ _ _ (by decide) fun j hj => ?_
  interval_cases j <;> simp [readBtr, -BitVec.getLsbD_eq_getElem]

@[simp] theorem readBtr_field_16_4 (c : Controller) (d : Word) : (readBtr c d).field 16 4 = c.btr.ts1 := by
  refine BusWord.field_eq_of_bits _ _ _ _ (by decide) fun j hj => ?_
  interval_cases j <;> simp [readBtr, -BitVec.getLsbD_eq_getElem]

@[simp] theorem readBtr_field_20_3 (c : Controller) (d : Word) : (readBtr c d).field 20 3 = c.btr.ts2 := by
  refine BusWord.field_eq_of_bits _ _ _ _ (by decide) fun j hj => ?_
  interval_cases j <;> simp [readBtr, -BitVec.getLsbD_eq_getElem]

@[simp] theorem readBtr_field_24_2 (c : Controller) (d : Word) : (readBtr c d).field 24 2 = c.btr.sjw := by
  refine BusWord.field_eq_of_bits _ _ _ _ (by decide) fun j hj => ?_
  interval_cases j <;> simp [readBtr, -BitVec.getLsbD_eq_getElem]

@[simp] theorem readEsr_field_4_3 (c : Controller) (d : Word) : (readEsr c d).field 4 3 = c.esr.lec := by
  refine BusWord.field_eq_of_bits _ _ _ _ (by decide) fun j hj => ?_
  interval_cases j <;> simp [readEsr, -BitVec.getLsbD_eq_getElem]

@[simp] theorem readEsr_field_16_8 (c : Controller) (d : Word) : (readEsr c d).field 16 8 = c.esr.tec := by
  refine BusWord.field_eq_of_bits _ _ _ _ (by decide) fun j hj => ?_
  interval_cases j <;> simp [readEsr, -BitVec.getLsbD_eq_getElem]

@[simp] theorem readEsr_field_24_8 (c : Controller) (d : Word) : (readEsr c d).field 24 8 = c.esr.rxec := by
  refine BusWord.field_eq_of_bits _ _ _ _ (by decide) fun j hj => ?_
  interval_cases j <;> simp [readEsr, -BitVec.getLsbD_eq_getElem]

@[simp] theorem readTdtr_field_0_4 (m : Mailbox) (d : Word) : (readTdtr m d).field 0 4 = m.dlc := by
  refine BusWord.field_eq_of_bits _ _ _ _ (by decide) fun j hj => ?_
  interval_cases j <;> simp [readTdtr, -BitVec.getLsbD_eq_getElem]

@[simp] theorem readTdtr_field_16_16 (m : Mailbox) (d : Word) : (readTdtr m d).field 16 16 = m.time := by
  refine BusWord.field_eq_of_bits _ _ _ _ (by decide) fun j hj => ?_
  interval_cases j <;> simp [readTdtr, -BitVec.getLsbD_eq_getElem]

@[simp] theorem readTdtr_bit8 (m : Mailbox) (d : Word) : (readTdtr m d).bit 8 = m.tgt := by
  simp [readTdtr, BusWord.bit, -BitVec.getLsbD_eq_getElem]

@[simp] theorem readTir_bit0 (m : Mailbox) : (readTir m).bit 0 = m.pending := by
  simp [readTir, -BitVec.getLsbD_eq_getElem]

@[simp] theorem readTir_field_1_31 (m : Mailbox) : (readTir m).field 1 31 = m.tir := by
  refine BusWord.field_eq_of_bits _ _ _ _ (by decide) fun j hj => ?_
  interval_cases j <;> simp [readTir, BusWord.ofWord, -BitVec.getLsbD_eq_getElem]

theorem readRfr_val_high (f : Fifo) (h : f.q.length ≤ 3) (k : Nat) (hk : 2 ≤ k) :
    (BitVec.ofNat 32 f.q.length).getLsbD k = false := by
  rw [BitVec.getLsbD_ofNat, Nat.testBit_lt_two_pow (Nat.lt_of_lt_of_le (by omega) (Nat.pow_le_pow_right (by decide) hk :
    2 ^ 2 ≤ 2 ^ k))]
  simp

theorem readRfr_bit3 (f : Fifo) (d : Word) (h : f.q.length ≤ 3) : (readRfr f d).bit 3 = f.full := by
  simp [readRfr, BusWord.bit, readRfr_val_high f h, -BitVec.getLsbD_eq_getElem]

theorem readRfr_bit4 (f : Fifo) (d : Word) (h : f.q.length ≤ 3) : (readRfr f d).bit 4 = f.fovr := by
  simp [readRfr, BusWord.bit, readRfr_val_high f h, -BitVec.getLsbD_eq_getElem]

theorem readRfr_bit5 (f : Fifo) (d : Word) (h : f.q.length ≤ 3) : (readRfr f d).bit 5 = false := by
  simp [readRfr, BusWord.bit, readRfr_val_high f h, -BitVec.getLsbD_eq_getElem]

theorem readRfr_field_0_2 (f : Fifo) (d : Word) :
    (readRfr f d).field 0 2 = BitVec.ofNat 2 f.q.length := by
  refine BusWord.field_eq_of_bits _ _ _ _ (by decide) fun j hj => ?_
  interval_cases j <;> simp [readRfr, BitVec.getLsbD_ofNat, -BitVec.getLsbD_eq_getElem]
  rfl

@[simp] theorem readFmr_bit0 (p : Params) (fl : FilterBlock) (d : Word) : (readFmr p fl d).bit 0 = fl.finit := by
  simp only [readFmr]
  split <;> simp [BusWord.bit, -BitVec.getLsbD_eq_getElem]

theorem readFmr_field_8_6 (p : Params) (fl : FilterBlock) (d : Word) (h : p.nbanks = .banks28) :
    (readFmr p fl d).field 8 6 = fl.can2sb := by
  refine BusWord.field_eq_of_bits _ _ _ _ (by decide) fun j hj => ?_
  simp only [readFmr, h]
  interval_cases j <;> simp [-BitVec.getLsbD_eq_getElem]

@[simp] theorem getLsbD_bankMask (p : Params) (k : Nat) : (bankMask p).getLsbD k = decide (k < p.nbanks.toNat) := by
  by_cases hk : k < 32
  · cases h : p.nbanks <;> simp only [bankMask, h, BankCount.toNat] <;> interval_cases k <;> decide
  · have : ¬ k < p.nbanks.toNat := by cases h : p.nbanks <;> simp [BankCount.toNat] <;> omega
    simp [this, BitVec.getLsbD_of_ge _ k (Nat.le_of_not_lt hk), -BitVec.getLsbD_eq_getElem]

/-- A bank's bit of a filter vector. -/
theorem readBankVector_bit (p : Params) (r : BitVec 28) (d : Word) (k : Nat) (h : k < p.nbanks.toNat) :
    (readBankVector p r d).bit k = r.getLsbD k := by
  have hk : k < 32 := by cases hb : p.nbanks <;> simp only [hb, BankCount.toNat] at h <;> omega
  simp only [BusWord.bit, readBankVector, BitVec.getLsbD_not, getLsbD_bankMask, h, hk, decide_true, Bool.not_true,
    Bool.and_false, Bool.false_eq_true, if_false, getLsbD_fieldAt, Nat.zero_le, Bool.true_and, Nat.sub_zero]

/-- The bits a write stores in a filter vector: those of the banks that exist. -/
theorem getLsbD_bankBits (p : Params) (v : BusWord) (k : Nat) :
    (bankBits p v).getLsbD k = (decide (k < p.nbanks.toNat) && v.bit k) := by
  cases h : p.nbanks
  · simp only [bankBits, h, BitVec.getLsbD_setWidth, BusWord.field_eq_word, BitVec.getLsbD_extractLsb', Nat.zero_add,
      BusWord.bit_eq_word, BankCount.toNat]
    by_cases h1 : k < 14
    · simp [h1, show k < 28 by omega, -BitVec.getLsbD_eq_getElem]
    · simp [h1, -BitVec.getLsbD_eq_getElem]
  · simp only [bankBits, h, BusWord.field_eq_word, BitVec.getLsbD_extractLsb', Nat.zero_add, BusWord.bit_eq_word,
      BankCount.toNat]
    rfl

end Sys2Proof.Machine
end

