-- ==== Sys2Proof/Laws/Programs.lean ====
section
/-! SUPPORT. The instructions as host programs: a read, a write and a read-modify-write instruction that is let
through, and the read-modify-writes of each register by its fields. -/

namespace Sys2Proof.Machine

/-! ## What lets an access through is kept -/

@[simp] theorem accessible_takeDraws (s : State) (n : Nat) (i : Inst) (r : Reg) :
    accessible (s.takeDraws n) i r = accessible s i r := by
  simp [accessible]

@[simp] theorem accessible_setFilter (s : State) (fl : FilterBlock) (i : Inst) (r : Reg) :
    accessible (s.setFilter fl) i r = accessible s i r := by
  simp [accessible]

@[simp] theorem accessible_returning (s : State) (v : Result) (i : Inst) (r : Reg) :
    accessible (s.returning v) i r = accessible s i r := by
  simp [accessible]

/-- A change of an instance that keeps its reset line keeps its window open. -/
theorem accessible_setCan (s : State) (i : Inst) (c : Controller) (r : Reg)
    (h : c.resetAsserted = (s.can i).resetAsserted) : accessible (s.setCan i c) i r = accessible s i r := by
  simp [accessible, h]

/-- A further read that is let through reads the state its gap leaves. -/
theorem thenRead_ok {s : State} {i : Inst} {r : Reg} (h : accessible s i r = true) :
    atOnce.thenRead i r s = .ok (readRule (afterGap s) i (Config.draw s.draws) r, (afterGap s).takeDraws 1) := by
  rw [thenRead_eq, regRead_ok (by simpa using h), afterGap_draws]

/-- A further write that is let through writes the state its gap leaves. -/
theorem thenWrite_ok {s s' : State} {i : Inst} {r : Reg} {v : BusWord} (h : accessible s i r = true)
    (hw : writeRule (.write i r v.whole) (afterGap s) i v r = .ok s') : atOnce.thenWrite i r v s = .ok ((), s') := by
  rw [thenWrite_eq, regWrite_ok (by simpa using h) hw]

/-! ## Instructions -/

theorem exec_rd_ok {s : State} {i : Inst} {r : Reg} (h : accessible s i r = true) :
    exec (Instr.rd r i) s
      = .next ((s.takeDraws 1).returning (.word (readRule s i (Config.draw s.draws) r))) := by
  rw [exec_rd, readInstr_ok h]

theorem exec_wr_ok {s s' : State} {i : Inst} {r : Reg} {v : Word} (h : accessible s i r = true)
    (hw : writeRule (.write i r v) s i (.ofWord v) r = .ok s') :
    exec (Instr.wr r i v) s = .next (s'.returning .none) := by
  rw [exec_wr, writeInstr_ok h hw]

theorem exec_wr_fault {s : State} {i : Inst} {r : Reg} {v : Word} {f : Fault} (h : accessible s i r = true)
    (hw : writeRule (.write i r v) s i (.ofWord v) r = .error (.fault f)) :
    exec (Instr.wr r i v) s = .fault f := by
  rw [exec_wr, writeInstr_fault h hw]

theorem exec_wr_refused {s : State} {i : Inst} {r : Reg} {v : Word} {f : Refusal} (h : accessible s i r = true)
    (hw : writeRule (.write i r v) s i (.ofWord v) r = .error (.refused f)) :
    exec (Instr.wr r i v) s = .refused f := by
  rw [exec_wr]
  unfold writeInstr finish
  rw [Prog.bind_stop (regWrite_stop h (by simpa using hw))]

theorem runUnit_ok {p : Prog Unit} {s s' : State} (h : p s = .ok ((), s')) :
    runUnit p s = .next (s'.returning .none) := by
  unfold runUnit
  rw [finish_ok (s' := s') (r := .none)]
  unfold returnsNone
  rw [Prog.bind_ok h]
  rfl

theorem runUnit_fault {p : Prog Unit} {s : State} {f : Fault} (h : p s = .error (.fault f)) :
    runUnit p s = .fault f := by
  unfold runUnit finish returnsNone
  rw [Prog.bind_stop h]

theorem runFlag_ok {p : Prog Bool} {s s' : State} {b : Bool} (h : p s = .ok (b, s')) :
    runFlag p s = .next (s'.returning (.flag b)) := by
  unfold runFlag
  rw [finish_ok (s' := s') (r := .flag b)]
  unfold returnsFlag
  rw [Prog.bind_ok h]
  rfl

/-! ## Read-modify-writes, with the agent steps between the two accesses -/

/-- A read-modify-write of MCR writes back each bit as it was READ, but for the ones it changes (R211 to R214). -/
theorem rmw_mcr (s : State) (i : Inst) (clr set : Word) (h : accessible s i .mcr = true)
    (hset : set.getLsbD 15 = false) :
    atOnce.rmw i .mcr clr set s = .ok ((), (afterGap (s.takeDraws 1)).setCan i
      { (afterGap (s.takeDraws 1)).can i with mcr :=
        { inrq := ((s.can i).mcr.inrq && !clr.getLsbD 0) || set.getLsbD 0
          sleep := ((s.can i).mcr.sleep && !clr.getLsbD 1) || set.getLsbD 1
          txfp := ((s.can i).mcr.txfp && !clr.getLsbD 2) || set.getLsbD 2
          rflm := ((s.can i).mcr.rflm && !clr.getLsbD 3) || set.getLsbD 3
          nart := ((s.can i).mcr.nart && !clr.getLsbD 4) || set.getLsbD 4
          awum := ((s.can i).mcr.awum && !clr.getLsbD 5) || set.getLsbD 5
          abom := ((s.can i).mcr.abom && !clr.getLsbD 6) || set.getLsbD 6
          ttcm := ((s.can i).mcr.ttcm && !clr.getLsbD 7) || set.getLsbD 7
          dbf := ((s.can i).mcr.dbf && !clr.getLsbD 16) || set.getLsbD 16 } }) := by
  refine rmw_ok h (by simpa [State.takeDraws] using h) ?_
  simp [writeRule, writeMcr, BusWord.update_bit, readRule, hset, Except.map, -BitVec.getLsbD_eq_getElem]

/-- `enterInit` sets INRQ in the MCR it read (R211). -/
theorem enterInitProg_ok {s : State} {i : Inst} (h : accessible s i .mcr = true) :
    enterInitProg atOnce i s = .ok ((), (afterGap (s.takeDraws 1)).setCan i
      { (afterGap (s.takeDraws 1)).can i with mcr := { (s.can i).mcr with inrq := true } }) := by
  rw [enterInitProg, rmw_mcr s i _ _ h (by decide)]
  simp

/-- `leaveInit` clears INRQ in the MCR it read (R212). -/
theorem leaveInitProg_ok {s : State} {i : Inst} (h : accessible s i .mcr = true) :
    leaveInitProg atOnce i s = .ok ((), (afterGap (s.takeDraws 1)).setCan i
      { (afterGap (s.takeDraws 1)).can i with mcr := { (s.can i).mcr with inrq := false } }) := by
  rw [leaveInitProg, rmw_mcr s i _ _ h (by decide)]
  simp

/-- One turn of the polling of R217 and R218: a gap, then one read of MSR. -/
theorem pollInak_succ {s : State} {i : Inst} (want : Bool) (n : Nat) (h : accessible s i .msr = true) :
    pollInak i want (n + 1) s =
      if ((afterGap s).can i).inak = want then .ok (true, (afterGap s).takeDraws 1)
      else if s.gaps = [] then .ok (false, (afterGap s).takeDraws (1 + n))
      else pollInak i want n ((afterGap s).takeDraws 1) := by
  conv_lhs => unfold pollInak
  rw [Prog.bind_ok (a := s.gaps.isEmpty) (s' := s) rfl, Prog.bind_ok (gap_eq s),
    Prog.bind_ok (regRead_ok (by simpa using h)), afterGap_draws]
  simp only [readRule, readMsr_bit0, List.isEmpty_iff]
  split
  · rfl
  · split
    · rw [Prog.bind_ok (a := ()) (s' := ((afterGap s).takeDraws 1).takeDraws n) rfl]
      simp [State.takeDraws, Nat.add_assoc]
    · rfl

/-- A read-modify-write of FMR that takes the latch (R314); CAN2SB is written back as read. -/
theorem rmw_fmr_hold {s : State} {i : Inst} (h : accessible s i .fmr = true) :
    atOnce.rmw i .fmr 0 1 s = .ok ((), (afterGap (s.takeDraws 1)).setFilter { s.filter with finit := true }) := by
  refine rmw_ok h (by simpa using h) ?_
  cases hb : s.params.nbanks <;> simp only [writeRule, readRule]
  · simp [writeFmr, hb, BusWord.update_bit, Except.map]
  · have e := BusWord.update_field_kept (readFmr s.params s.filter (Config.draw s.draws)) 0#32 1#32 8 6 (by decide) (by decide)
      (by decide)
    rw [readFmr_field_8_6 _ _ _ hb] at e
    simp [writeFmr, hb, e, BusWord.update_bit, Except.map]

/-- A read-modify-write of FMR that releases the latch (R314). -/
theorem rmw_fmr_release {s : State} {i : Inst} (h : accessible s i .fmr = true) :
    atOnce.rmw i .fmr 1 0 s = .ok ((), (afterGap (s.takeDraws 1)).setFilter { s.filter with finit := false }) := by
  refine rmw_ok h (by simpa using h) ?_
  cases hb : s.params.nbanks <;> simp only [writeRule, readRule]
  · simp [writeFmr, hb, BusWord.update_bit, Except.map]
  · have e := BusWord.update_field_kept (readFmr s.params s.filter (Config.draw s.draws)) 1#32 0#32 8 6 (by decide) (by decide)
      (by decide)
    rw [readFmr_field_8_6 _ _ _ hb] at e
    simp [writeFmr, hb, e, BusWord.update_bit, Except.map]

/-- What a read-modify-write leaves in one of the four bank vectors. -/
def vectorAfter (s : State) (r : BitVec 28) (clr set : Word) : BitVec 28 :=
  bankBits s.params ((readBankVector s.params r (Config.draw s.draws)).update clr set)

theorem getLsbD_vectorAfter (s : State) (r : BitVec 28) (clr set : Word) (k : Nat) (h : k < s.params.nbanks.toNat) :
    (vectorAfter s r clr set).getLsbD k = ((r.getLsbD k && !clr.getLsbD k) || set.getLsbD k) := by
  have hk : k < 32 := by cases hb : s.params.nbanks <;> simp only [hb, BankCount.toNat] at h <;> omega
  rw [vectorAfter, getLsbD_bankBits, BusWord.update_bit _ _ _ _ hk, readBankVector_bit _ _ _ _ h]
  simp [h]

theorem rmw_fm1r {s : State} {i : Inst} (clr set : Word) (h : accessible s i .fmr = true)
    (hf : s.filter.finit = true) :
    atOnce.rmw i .fm1r clr set s = .ok ((), (afterGap (s.takeDraws 1)).setFilter
      { s.filter with fbm := vectorAfter s s.filter.fbm clr set }) := by
  refine rmw_ok (r := .fm1r) h (by rw [afterGap_accessible, accessible_takeDraws]; exact h) ?_
  simp [writeRule, FilterBlock.ifLatched, hf, Except.map, readRule, vectorAfter]

theorem rmw_fs1r {s : State} {i : Inst} (clr set : Word) (h : accessible s i .fmr = true)
    (hf : s.filter.finit = true) :
    atOnce.rmw i .fs1r clr set s = .ok ((), (afterGap (s.takeDraws 1)).setFilter
      { s.filter with fsc := vectorAfter s s.filter.fsc clr set }) := by
  refine rmw_ok (r := .fs1r) h (by rw [afterGap_accessible, accessible_takeDraws]; exact h) ?_
  simp [writeRule, FilterBlock.ifLatched, hf, Except.map, readRule, vectorAfter]

theorem rmw_ffa1r {s : State} {i : Inst} (clr set : Word) (h : accessible s i .fmr = true)
    (hf : s.filter.finit = true) :
    atOnce.rmw i .ffa1r clr set s = .ok ((), (afterGap (s.takeDraws 1)).setFilter
      { s.filter with ffa := vectorAfter s s.filter.ffa clr set }) := by
  refine rmw_ok (r := .ffa1r) h (by rw [afterGap_accessible, accessible_takeDraws]; exact h) ?_
  simp [writeRule, FilterBlock.ifLatched, hf, Except.map, readRule, vectorAfter]

theorem rmw_fa1r {s : State} {i : Inst} (clr set : Word) (h : accessible s i .fmr = true)
    (hf : s.filter.finit = true) :
    atOnce.rmw i .fa1r clr set s = .ok ((), (afterGap (s.takeDraws 1)).setFilter
      { s.filter with fact := vectorAfter s s.filter.fact clr set }) := by
  refine rmw_ok (r := .fa1r) h (by rw [afterGap_accessible, accessible_takeDraws]; exact h) ?_
  simp [writeRule, FilterBlock.ifLatched, hf, Except.map, readRule, vectorAfter]

end Sys2Proof.Machine
end

