-- ==== Sys2Proof/Laws/Calls.lean ====
section
/-! SUPPORT. An operation turn by turn: nothing but the host's turn looks at the operation the host is in, the agent
steps of a gap are steps of the run, and what one turn does with the answers of earlier turns. -/

namespace Sys2Proof.Machine

/-! ## Nothing else looks at the operation the host is in -/

@[simp] theorem agentStep_calling (a : AgentStep) (s : State) (c : Option Call) :
    agentStep a (s.calling c) = (agentStep a s).calling c := by
  have he : a.enabled (s.calling c) = a.enabled s := by simp [AgentStep.enabled]
  unfold agentStep
  rw [he]
  split
  · cases a <;> simp [AgentStep.perform, attemptStep]
    split <;> simp
  · rfl

@[simp] theorem agentSteps_calling (l : List AgentStep) (c : Option Call) :
    ∀ s : State, agentSteps l (s.calling c) = (agentSteps l s).calling c := by
  induction l with
  | nil => intro s; rfl
  | cons a l ih => intro s; simp only [agentSteps, List.foldl_cons, agentStep_calling]; exact ih _

@[simp] theorem afterGap_calling (s : State) (c : Option Call) : afterGap (s.calling c) = (afterGap s).calling c := by
  unfold afterGap
  rw [State.calling_gaps]
  split
  · rfl
  · rename_i l rest _
    exact agentSteps_calling l c { s with gaps := rest }

@[simp] theorem agentStep_takeDraws (a : AgentStep) (s : State) (n : Nat) :
    agentStep a (s.takeDraws n) = (agentStep a s).takeDraws n := by
  have he : a.enabled (s.takeDraws n) = a.enabled s := by simp [AgentStep.enabled]
  unfold agentStep
  rw [he]
  split
  · cases a <;> simp [AgentStep.perform, attemptStep]
    · split <;> simp
    · rfl
  · rfl

@[simp] theorem agentSteps_takeDraws (l : List AgentStep) (n : Nat) :
    ∀ s : State, agentSteps l (s.takeDraws n) = (agentSteps l s).takeDraws n := by
  induction l with
  | nil => intro s; rfl
  | cons a l ih => intro s; simp only [agentSteps, List.foldl_cons, agentStep_takeDraws]; exact ih _

theorem afterGap_takeDraws (s : State) (n : Nat) : afterGap (s.takeDraws n) = (afterGap s).takeDraws n := by
  unfold afterGap
  rw [State.takeDraws_gaps]
  split
  · rfl
  · rename_i l rest _
    exact agentSteps_takeDraws l n { s with gaps := rest }

theorem readRule_calling (s : State) (c : Option Call) (i : Inst) (d : Word) (r : Reg) :
    readRule (s.calling c) i d r = readRule s i d r := by cases r <;> simp [readRule]

theorem writeRule_calling (a : Access) (s : State) (c : Option Call) (i : Inst) (v : BusWord) (r : Reg) :
    writeRule a (s.calling c) i v r = (writeRule a s i v r).map (State.calling · c) := by
  cases r <;> simp only [writeRule, State.can_calling, State.setCan_calling, State.calling_filter,
    State.calling_params, Except.map] <;> first | rfl | (split <;> rfl)

theorem checkAccess_calling (s : State) (c : Option Call) (a : Access) (r : Reg) :
    checkAccess (s.calling c) a r = checkAccess s a r := by simp [checkAccess]

/-! ## A register access is no operation of several host steps -/

theorem callProg_rd (r : Reg) (i : Inst) : callProg (Instr.rd r i) = none := by
  cases r with
  | fr b k => fin_cases b <;> cases k <;> rfl
  | rfr x | tir x | tdtr x | tdlr x | tdhr x | rir x | rdtr x | rdlr x | rdhr x => cases x <;> rfl
  | _ => rfl

theorem callProg_wr (r : Reg) (i : Inst) (v : Word) : callProg (Instr.wr r i v) = none := by
  cases r with
  | fr b k => fin_cases b <;> cases k <;> rfl
  | rfr x | tir x | tdtr x | tdlr x | tdhr x | rir x | rdtr x | rdlr x | rdhr x => cases x <;> rfl
  | _ => rfl

/-! ## Points of an operation -/

theorem turnPoint_replay (b : Bool) (p : Prog BusWord) (w : BusWord) (l : List BusWord) (tk : List BusWord) (m : Bool) (s : State) :
    turnPoint b p ⟨w :: l, tk, m, s⟩ = .ok (w, ⟨l, tk ++ [w], m, s⟩) := rfl

theorem turnPoint_made (b : Bool) (p : Prog BusWord) (tk : List BusWord) (s : State) :
    turnPoint b p ⟨[], tk, true, s⟩ = .error (.waits ⟨[], tk, true, s⟩) := rfl

theorem turnBind {α β : Type} (p : TurnProg α) (f : α → TurnProg β) (t : Turn) :
    (p >>= f) t = match p t with | .ok (a, t') => f a t' | .error e => .error e := by
  show StateT.bind p f t = _
  unfold StateT.bind
  show Except.bind _ _ = _
  unfold Except.bind
  cases p t <;> rfl

theorem progBind {α β : Type} (p : Prog α) (f : α → Prog β) (t : State) :
    (p >>= f) t = match p t with | .ok (a, t') => f a t' | .error e => .error e := by
  show StateT.bind p f t = _
  unfold StateT.bind
  show Except.bind _ _ = _
  unfold Except.bind
  cases p t <;> rfl

theorem turnBind_ok {α β : Type} {p : TurnProg α} {f : α → TurnProg β} {t : Turn} {a : α} {t' : Turn} (h : p t = .ok (a, t')) :
    (p >>= f) t = f a t' := by rw [turnBind, h]

theorem turnBind_stop {α β : Type} {p : TurnProg α} {f : α → TurnProg β} {t : Turn} {e : Halt} (h : p t = .error e) :
    (p >>= f) t = .error e := by rw [turnBind, h]

/-! ## The agent steps of a gap are steps of the run -/

/-- Go on from a next state. -/
def Outcome.andThen (o : Host.Outcome State Fault Refusal) (f : State → Host.Outcome State Fault Refusal) :
    Host.Outcome State Fault Refusal :=
  match o with
  | .next t => f t
  | .fault e => .fault e
  | .refused r => .refused r

theorem stepsFrom_succ (n : Nat) (s : State) : stepsFrom (n + 1) s = Outcome.andThen (step s) (stepsFrom n) := by
  rw [stepsFrom]; rfl

/-- The agent steps scheduled before the host's turn come first. -/
theorem stepsFrom_hostTurn (l : List AgentStep) (g : List (List AgentStep)) (n : Nat) : ∀ s : State, s.gaps = l :: g →
    stepsFrom (l.length + (n + 1)) s = Outcome.andThen (hostTurn (afterGap s)) (stepsFrom n) := by
  induction l with
  | nil =>
    intro s h
    simp only [List.length_nil, Nat.zero_add]
    rw [stepsFrom_succ]
    simp only [step, nextStep, h, afterGap]; rfl
  | cons a l ih =>
    intro s h
    have e : (a :: l).length + (n + 1) = (l.length + (n + 1)) + 1 := by simp; omega
    rw [e, stepsFrom_succ]
    have h1 : step s = .next (agentStep a { s with gaps := l :: g }) := by simp only [step, nextStep, h]
    rw [h1]
    show stepsFrom (l.length + (n + 1)) (agentStep a { s with gaps := l :: g }) = _
    rw [ih _ (by simp)]
    congr 2
    simp only [afterGap, h, agentStep_gaps]
    simp only [agentSteps, List.foldl_cons]
    congr 1
    obtain ⟨c, lg, hc⟩ := agentStep_change a { s with gaps := l :: g }
    have hg : ∀ (s : State) (g : List (List AgentStep)), agentStep a { s with gaps := g } = { agentStep a s with gaps := g } := by
      intro s g
      have he : a.enabled { s with gaps := g } = a.enabled s := by simp [AgentStep.enabled]
      unfold agentStep
      rw [he]
      split
      · cases a <;> simp [AgentStep.perform, attemptStep, State.send]
        split <;> simp
      · rfl
    rw [hg s (l :: g), hg s g]

/-- Any number of steps from the host's turn on is that number and the scheduled agent steps before it. -/
theorem stepsFrom_hostTurn_any (s : State) (n : Nat) :
    ∃ k, 0 < k ∧ stepsFrom k s = Outcome.andThen (hostTurn (afterGap s)) (stepsFrom n) := by
  rcases h : s.gaps with _ | ⟨l, g⟩
  · refine ⟨n + 1, by omega, ?_⟩
    rw [stepsFrom_succ, afterGap_of_ended s h]
    simp only [step, nextStep, h]
  · exact ⟨_, by omega, stepsFrom_hostTurn l g n s h⟩


end Sys2Proof.Machine
end

