-- ==== Sys2Proof/Laws/Encoding.lean ====
section
/-! SUPPORT. The laws of the decoder: which register an offset selects, what an access word holds, and what an access
of a whole aligned word decodes to (30_encoding.md R150, R151). -/

namespace Sys2Proof

/-- An access word holds W and OFF (R150). -/
theorem accessWord_fields (w : Bool) (n : Nat) (h : n < 1024) :
    ((BitVec.ofNat 11 ((if w then 1024 else 0) + n)).extractLsb' 0 10).toNat = n ∧
      (BitVec.ofNat 11 ((if w then 1024 else 0) + n)).getLsbD 10 = w ∧
      ((BitVec.ofNat 11 ((if w then 1024 else 0) + n)).extractLsb' 0 2).toNat = n % 4 := by
  have key : ∀ (w : Bool) (n : Fin 1024),
      ((BitVec.ofNat 11 ((if w then 1024 else 0) + n.val)).extractLsb' 0 10).toNat = n.val ∧
        (BitVec.ofNat 11 ((if w then 1024 else 0) + n.val)).getLsbD 10 = w ∧
        ((BitVec.ofNat 11 ((if w then 1024 else 0) + n.val)).extractLsb' 0 2).toNat = n.val % 4 := by
    decide +kernel
  exact key w ⟨n, h⟩

/-- No register lies past the last bank. -/
theorem Reg.ofOffset?_lt {off : Nat} {r : Reg} (h : Reg.ofOffset? off = some r) : off < 0x320 := by
  by_contra hc
  have h1 : Reg.ofOffset? off = none := by
    unfold Reg.ofOffset?
    repeat rw [if_neg (by first | omega | (simp only [Bool.and_eq_true, decide_eq_true_eq]; omega))]
    rw [dif_neg (by omega)]
  rw [h1] at h
  cases h

/-- A register is found at its own offset. -/
@[simp] theorem Reg.ofOffset?_offset (r : Reg) : Reg.ofOffset? r.offset = some r := by
  cases r with
  | fr b k => revert b k; intro b k; cases k <;> revert b <;> decide +kernel
  | rfr x => cases x <;> rfl
  | tir x => cases x <;> rfl
  | tdtr x => cases x <;> rfl
  | tdlr x => cases x <;> rfl
  | tdhr x => cases x <;> rfl
  | rir x => cases x <;> rfl
  | rdtr x => cases x <;> rfl
  | rdlr x => cases x <;> rfl
  | rdhr x => cases x <;> rfl
  | _ => rfl

/-- An aligned offset at which a register is found is that register's. -/
theorem Reg.offset_of_ofOffset? {off : Nat} {r : Reg} (h4 : off % 4 = 0) (h : Reg.ofOffset? off = some r) :
    r.offset = off := by
  have hlt := Reg.ofOffset?_lt h
  have key : ∀ n : Fin 200, (Reg.ofOffset? (4 * n.val)).all (fun r => r.offset = 4 * n.val) = true := by
    decide +kernel
  have h1 := key ⟨off / 4, by omega⟩
  simp only [show 4 * (off / 4) = off by omega, h, Option.all_some, decide_eq_true_eq] at h1
  exact h1

theorem Reg.offset_lt (r : Reg) : r.offset < 0x320 := Reg.ofOffset?_lt r.ofOffset?_offset

theorem Reg.offset_aligned (r : Reg) : r.offset % 4 = 0 := by
  cases r <;> simp only [Reg.offset] <;> omega

/-- A whole aligned word read at an offset is a read of the register there. -/
theorem Access.decode_read (i : Inst) (off : Nat) (h : off < 1024) (h4 : off % 4 = 0) :
    Access.decode { inst := i, word := BitVec.ofNat 11 off, width := .w32, data := none } =
      match Reg.ofOffset? off with
      | some r => .ok (Instr.rd r i)
      | none => .error (.reservedOffset { inst := i, word := BitVec.ofNat 11 off, width := .w32, data := none }) := by
  have hw := accessWord_fields false off h
  simp only [Bool.false_eq_true, if_false, Nat.zero_add] at hw
  have h0 : (BitVec.ofNat 11 off).extractLsb' 0 2 = 0 := by
    apply BitVec.eq_of_toNat_eq
    rw [hw.2.2, h4]
    rfl
  simp only [Access.decode, h0, and_self, if_true, hw.1, hw.2.1]
  cases Reg.ofOffset? off <;> rfl

/-- A whole aligned word written at an offset is a write of the register there. -/
theorem Access.decode_write (i : Inst) (off : Nat) (v : Word) (h : off < 1024) (h4 : off % 4 = 0) :
    Access.decode { inst := i, word := BitVec.ofNat 11 (1024 + off), width := .w32, data := some v } =
      match Reg.ofOffset? off with
      | some r => .ok (Instr.wr r i v)
      | none =>
        .error (.reservedOffset { inst := i, word := BitVec.ofNat 11 (1024 + off), width := .w32, data := some v }) := by
  have hw := accessWord_fields true off h
  simp only [if_true] at hw
  have h0 : (BitVec.ofNat 11 (1024 + off)).extractLsb' 0 2 = 0 := by
    apply BitVec.eq_of_toNat_eq
    rw [hw.2.2, h4]
    rfl
  simp only [Access.decode, h0, and_self, if_true, hw.1, hw.2.1]
  cases Reg.ofOffset? off <;> rfl

/-! ## Bytes -/

theorem Parse.bind_ok {α β : Type} {p : Parse α} {k : α → Parse β} {bs rest : List Byte} {a : α}
    (h : p bs = .ok (a, rest)) : (p >>= k) bs = k a rest := by
  show (StateT.bind p k) bs = _
  simp [StateT.bind, h, bind, Except.bind]

/-- A parser that answers has answered piece by piece. -/
theorem Parse.bind_cases {α β : Type} {p : Parse α} {k : α → Parse β} {bs rest : List Byte} {b : β}
    (h : (p >>= k) bs = .ok (b, rest)) : ∃ a mid, p bs = .ok (a, mid) ∧ k a mid = .ok (b, rest) := by
  change (StateT.bind p k) bs = _ at h
  simp only [StateT.bind, bind, Except.bind] at h
  split at h
  · cases h
  · rename_i x hx
    exact ⟨x.1, x.2, hx, h⟩

@[simp] theorem Parse.pure_eq {α : Type} (a : α) (bs : List Byte) : (pure a : Parse α) bs = .ok (a, bs) := rfl

@[simp] theorem getByte_cons (b : Byte) (bs : List Byte) : getByte (b :: bs) = .ok (b, bs) := rfl

@[simp] theorem leBytes_length (n m : Nat) : (leBytes n m).length = n := by
  induction n generalizing m with
  | zero => rfl
  | succ n ih => simp [leBytes, ih]

/-- A number is read back from its bytes. -/
theorem getNat_leBytes (n m : Nat) (h : m < 256 ^ n) (rest : List Byte) :
    getNat n (leBytes n m ++ rest) = .ok (m, rest) := by
  induction n generalizing m with
  | zero => simp at h; subst h; rfl
  | succ n ih =>
    have h1 : m / 256 < 256 ^ n := by
      rw [Nat.pow_succ] at h
      exact Nat.div_lt_of_lt_mul (by rwa [Nat.mul_comm] at h)
    unfold getNat leBytes
    rw [List.cons_append, Parse.bind_ok (getByte_cons _ _), Parse.bind_ok (ih _ h1)]
    simp only [Parse.pure_eq, BitVec.toNat_ofNat]
    congr 2
    omega

/-- What a number was read from is its bytes. -/
theorem getNat_cases {n m : Nat} {bs rest : List Byte} (h : getNat n bs = .ok (m, rest)) :
    m < 256 ^ n ∧ bs = leBytes n m ++ rest := by
  induction n generalizing m bs with
  | zero => cases h; exact ⟨by simp, rfl⟩
  | succ n ih =>
    obtain ⟨b, mid, h1, h2⟩ := Parse.bind_cases h
    obtain ⟨k, mid2, h3, h4⟩ := Parse.bind_cases h2
    cases h4
    cases bs with
    | nil => cases h1
    | cons b' tl =>
      cases h1
      obtain ⟨h5, h6⟩ := ih h3
      have hb := b.isLt
      refine ⟨?_, ?_⟩
      · rw [Nat.pow_succ]; omega
      · unfold leBytes
        rw [h6, List.cons_append]
        congr 1
        · apply BitVec.eq_of_toNat_eq; simp; omega
        · rw [show (b.toNat + 256 * k) / 256 = k by omega]

theorem getInst_bytes (i : Inst) (rest : List Byte) : getInst (i.bytes ++ rest) = .ok (i, rest) := by
  cases i <;> rfl

theorem getInst_cases {i : Inst} {bs rest : List Byte} (h : getInst bs = .ok (i, rest)) : bs = i.bytes ++ rest := by
  obtain ⟨b, mid, h1, h2⟩ := Parse.bind_cases h
  cases bs with
  | nil => cases h1
  | cons b' tl =>
    cases h1
    split at h2
    · cases h2; simp [Inst.bytes, *]
    · split at h2
      · cases h2; simp [Inst.bytes, *]
      · cases h2

theorem getFlag_bytes (b : Bool) (rest : List Byte) : getFlag (flagBytes b ++ rest) = .ok (b, rest) := by
  cases b <;> rfl

theorem getFlag_cases {b : Bool} {bs rest : List Byte} (h : getFlag bs = .ok (b, rest)) :
    bs = flagBytes b ++ rest := by
  obtain ⟨c, mid, h1, h2⟩ := Parse.bind_cases h
  cases bs with
  | nil => cases h1
  | cons b' tl =>
    cases h1
    split at h2
    · cases h2; simp [flagBytes, *]
    · split at h2
      · cases h2; simp [flagBytes, *]
      · cases h2

theorem getWidth_bytes (w : Width) (rest : List Byte) : getWidth (w.bytes ++ rest) = .ok (w, rest) := by
  cases w <;> rfl

theorem getWidth_cases {w : Width} {bs rest : List Byte} (h : getWidth bs = .ok (w, rest)) :
    bs = w.bytes ++ rest := by
  obtain ⟨c, mid, h1, h2⟩ := Parse.bind_cases h
  cases bs with
  | nil => cases h1
  | cons b' tl =>
    cases h1
    split at h2
    · cases h2; simp [Width.bytes, *]
    · split at h2
      · cases h2; simp [Width.bytes, *]
      · split at h2
        · cases h2; simp [Width.bytes, *]
        · cases h2

theorem getBytes_append (l rest : List Byte) : getBytes l.length (l ++ rest) = .ok (l, rest) := by
  induction l with
  | nil => rfl
  | cons b l ih =>
    unfold getBytes
    simp only [List.length_cons, List.cons_append]
    rw [Parse.bind_ok (getByte_cons _ _), Parse.bind_ok ih]
    rfl

theorem getBytes_cases {n : Nat} {l bs rest : List Byte} (h : getBytes n bs = .ok (l, rest)) :
    l.length = n ∧ bs = l ++ rest := by
  induction n generalizing l bs with
  | zero => cases h; exact ⟨rfl, rfl⟩
  | succ n ih =>
    obtain ⟨b, mid, h1, h2⟩ := Parse.bind_cases h
    obtain ⟨k, mid2, h3, h4⟩ := Parse.bind_cases h2
    cases h4
    cases bs with
    | nil => cases h1
    | cons b' tl =>
      cases h1
      obtain ⟨h5, h6⟩ := ih h3
      exact ⟨by simp [h5], by rw [h6]; rfl⟩

end Sys2Proof
end

