-- ==== Sys2Proof/Laws/Gaps.lean ====
section
/-! SUPPORT. What no agent changes while a host operation is under way: an empty mailbox (43_transmit.md R356, R357)
and the oldest entry of a receive FIFO (44_receive.md R405). -/

namespace Sys2Proof.Machine

@[simp] theorem Controller.clearLec_mb (c : Controller) (x : MbIx) : c.clearLec.mb x = c.mb x := by
  cases x <;> rfl

@[simp] theorem Controller.clearLec_fifo (c : Controller) (x : FifoIx) : c.clearLec.fifo x = c.fifo x := by
  cases x <;> rfl

@[simp] theorem Controller.enterMode_mb (c : Controller) (t : Mode) (x : MbIx) : (c.enterMode t).mb x = c.mb x := by
  cases t <;> cases x <;> rfl

@[simp] theorem Controller.enterMode_fifo (c : Controller) (t : Mode) (x : FifoIx) :
    (c.enterMode t).fifo x = c.fifo x := by
  cases t <;> cases x <;> rfl

@[simp] theorem Controller.errorEvent_mb (c : Controller) (code : Option ErrorCode) (d : ErrorDraws) (x : MbIx) :
    (c.errorEvent code d).mb x = c.mb x := by
  cases x <;> rfl

@[simp] theorem Controller.errorEvent_fifo (c : Controller) (code : Option ErrorCode) (d : ErrorDraws) (x : FifoIx) :
    (c.errorEvent code d).fifo x = c.fifo x := by
  cases x <;> rfl

@[simp] theorem Controller.setMb_fifo (c : Controller) (y : MbIx) (m : Mailbox) (x : FifoIx) :
    (c.setMb y m).fifo x = c.fifo x := by
  cases x <;> cases y <;> rfl

@[simp] theorem Controller.setFifo_mb (c : Controller) (y : FifoIx) (f : Fifo) (x : MbIx) :
    (c.setFifo y f).mb x = c.mb x := by
  cases x <;> cases y <;> rfl

/-- Storing into a pending mailbox leaves the empty ones alone. -/
theorem Controller.mb_setMb_of_empty (c : Controller) (x y : MbIx) (m : Mailbox) (hy : (c.mb y).pending = true)
    (hx : (c.mb x).pending = false) : (c.setMb y m).mb x = c.mb x := by
  by_cases h : x = y
  · subst h
    rw [hy] at hx
    cases hx
  · exact mb_setMb_other _ _ _ _ h

/-- No agent touches an empty mailbox. -/
theorem agentStep_mb_of_empty (a : AgentStep) (s : State) (i : Inst) (x : MbIx)
    (h : ((s.can i).mb x).pending = false) : ((agentStep a s).can i).mb x = (s.can i).mb x := by
  refine agentStep_keeps (fun c d => (c.mb x).pending = false → d.mb x = c.mb x) (fun _ _ => rfl) ?_ a s i h
  intro a s he hx
  cases a with
  | modeFsm j =>
    rw [AgentStep.inst, perform_modeFsm_can]
    split <;> simp
  | txAttempt j y st b6 b7 o =>
    have hp : ((s.can j).mb y).pending = true := by
      simp only [AgentStep.enabled, AgentStep.ready, txAttemptEnabled, Bool.and_eq_true, AgentStep.inst] at he
      simp_all
    rw [AgentStep.inst, perform_txAttempt_can]
    cases o with
    | success ka kt rx =>
      simp only [Controller.attempt, Controller.clearLec_mb]
      split
      · rw [Controller.mb_setMb_of_empty _ _ _ _ (by simpa using hp)
          (by rw [Controller.offer_mb]; exact hx), Controller.offer_mb]
      · exact Controller.mb_setMb_of_empty _ _ _ _ hp hx
    | arbitrationLost => exact Controller.mb_setMb_of_empty _ _ _ _ hp hx
    | error code d =>
      simp only [Controller.attempt, Controller.errorEvent_mb]
      exact Controller.mb_setMb_of_empty _ _ _ _ hp hx
  | txAbort j y =>
    rw [AgentStep.inst, perform_txAbort_can]
    refine Controller.mb_setMb_of_empty _ _ _ _ ?_ hx
    simp only [AgentStep.enabled, AgentStep.ready, Bool.and_eq_true, AgentStep.inst] at he
    exact he.2.1.2
  | rxFrame j f d => rw [AgentStep.inst, perform_rxFrame_can, Controller.offer_mb]
  | errorEvent j c d => rw [AgentStep.inst, perform_errorEvent_can, Controller.errorEvent_mb]
  | wakeUp j => rw [AgentStep.inst, perform_wakeUp_can]; cases x <;> rfl
  | busOffRecovery j => rw [AgentStep.inst, perform_busOffRecovery_can]; cases x <;> rfl

/-- No gap touches an empty mailbox. -/
theorem afterGap_mb_of_empty (s : State) (i : Inst) (x : MbIx) (h : ((s.can i).mb x).pending = false) :
    ((afterGap s).can i).mb x = (s.can i).mb x :=
  afterGap_keeps (fun t => (t.can i).mb x = (s.can i).mb x) (fun t g ht => by simpa using ht)
    (fun a t ht => by rw [agentStep_mb_of_empty a t i x (by rw [ht]; exact h), ht]) s rfl

/-- A new entry never displaces the oldest one. -/
theorem Fifo.head_enqueue (f : Fifo) (locked : Bool) (e e' : Entry) (h : f.q.head? = some e) :
    (f.enqueue locked e').q.head? = some e := by
  cases hq : f.q with
  | nil => simp [hq] at h
  | cons e0 l =>
    obtain rfl : e0 = e := by simpa [hq] using h
    unfold Fifo.enqueue
    split
    · simp [hq]
    · split <;> simp [hq, Config.fifoDepth]

theorem Controller.head_offer (c : Controller) (p : Params) (fl : FilterBlock) (i : Inst) (f : Frame) (d : RxDraws)
    (x : FifoIx) (e : Entry) (h : (c.fifo x).q.head? = some e) :
    ((c.offer p fl i f d).fifo x).q.head? = some e := by
  rcases c.offer_cases p fl i f d with h1 | ⟨y, n, _, h1⟩ <;> rw [h1]
  · simpa using h
  · by_cases hy : x = y
    · subst hy
      rw [Controller.fifo_setFifo_same]
      exact Fifo.head_enqueue _ _ _ _ h
    · rw [Controller.fifo_setFifo_other _ _ _ _ hy]
      simpa using h

/-- No agent removes the oldest entry of a FIFO. -/
theorem agentStep_head (a : AgentStep) (s : State) (i : Inst) (x : FifoIx) (e : Entry)
    (h : ((s.can i).fifo x).q.head? = some e) : (((agentStep a s).can i).fifo x).q.head? = some e := by
  refine agentStep_keeps (fun c d => (c.fifo x).q.head? = some e → (d.fifo x).q.head? = some e) (fun _ h => h) ?_
    a s i h
  intro a s _ h
  cases a with
  | modeFsm j =>
    rw [AgentStep.inst, perform_modeFsm_can]
    split
    · rw [Controller.enterMode_fifo]
      exact h
    · exact h
  | txAttempt j y st b6 b7 o =>
    rw [AgentStep.inst, perform_txAttempt_can]
    cases o with
    | success ka kt rx =>
      simp only [Controller.attempt, Controller.clearLec_fifo, Controller.setMb_fifo]
      split
      · exact Controller.head_offer _ _ _ _ _ _ _ _ h
      · exact h
    | arbitrationLost =>
      simp only [Controller.attempt, Controller.setMb_fifo]
      exact h
    | error code d =>
      simp only [Controller.attempt, Controller.errorEvent_fifo, Controller.setMb_fifo]
      exact h
  | txAbort j y => simpa [AgentStep.inst] using h
  | rxFrame j f d =>
    rw [AgentStep.inst, perform_rxFrame_can]
    exact Controller.head_offer _ _ _ _ _ _ _ _ h
  | errorEvent j c d => simpa [AgentStep.inst] using h
  | wakeUp j => rw [AgentStep.inst, perform_wakeUp_can]; cases x <;> exact h
  | busOffRecovery j => rw [AgentStep.inst, perform_busOffRecovery_can]; cases x <;> exact h

/-- No gap removes the oldest entry of a FIFO. -/
theorem afterGap_head (s : State) (i : Inst) (x : FifoIx) (e : Entry) (h : ((s.can i).fifo x).q.head? = some e) :
    (((afterGap s).can i).fifo x).q.head? = some e :=
  afterGap_keeps (fun t => ((t.can i).fifo x).q.head? = some e) (fun t g ht => by simpa using ht)
    (fun a t ht => agentStep_head a t i x e ht) s h

end Sys2Proof.Machine
end

