-- ==== Sys2Proof/Laws/HostTrees.lean ====
section
/-! SUPPORT. Each operation of several host steps is one tree of host steps, which `atOnce` and `byTurns` carry out; and
what the turns of a tree add up to. -/

namespace Sys2Proof.Machine

/-! ## Trees of host steps -/

/-- One host step (R6). -/
inductive HostStep where
  | read (i : Inst) (r : Reg)
  | write (i : Inst) (r : Reg) (v : BusWord)
  | assertReset (i : Inst)
  | clearReset (i : Inst)

/-- A host step that answers nothing answers a zero word. -/
def answersZero {m : Type → Type} [Monad m] (p : m Unit) : m BusWord := do
  p
  pure (.ofWord 0)

/-- A host step carried out by a driver. -/
def HostStep.perform {m : Type → Type} [Monad m] (h : Driver m) : HostStep → m BusWord
  | .read i r => h.read i r
  | .write i r v => answersZero (h.write i r v)
  | .assertReset i => answersZero (h.assertReset i)
  | .clearReset i => answersZero (h.clearReset i)

/-- Not a call of the reset collaborator. -/
def HostStep.isAccess : HostStep → Prop
  | .read _ _ => True
  | .write _ _ _ => True
  | .assertReset _ => False
  | .clearReset _ => False

/-- A host program as a tree: its host steps, the gaps before them and the draws for them. -/
inductive HostTree (α : Type) where
  | ret (a : α)
  | fail (f : Fault)
  | gap (k : HostTree α)
  | draw (k : Word → HostTree α)
  | params (k : Params → HostTree α)
  | act (x : HostStep) (k : BusWord → HostTree α)

namespace HostTree
variable {α β : Type}

/-- One program after another. -/
def bind : HostTree α → (α → HostTree β) → HostTree β
  | ret a, f => f a
  | fail e, _ => fail e
  | gap k, f => gap (k.bind f)
  | draw k, f => draw fun w => (k w).bind f
  | params k, f => params fun p => (k p).bind f
  | act x k, f => act x fun w => (k w).bind f

/-- The program of a tree, carried out by a driver. -/
def run {m : Type → Type} [Monad m] (h : Driver m) : HostTree α → m α
  | ret a => pure a
  | fail f => h.fail f
  | gap k => do h.gap; k.run h
  | draw k => do let w ← h.draw; (k w).run h
  | params k => do let p ← h.params; (k p).run h
  | act x k => do let w ← x.perform h; (k w).run h

/-- After draws for it and a gap, a host step comes next. -/
inductive Leads (P : HostStep → Prop) : HostTree α → Prop
  | gap (x k) : P x → Leads P (.gap (.act x k))
  | draw (k) : (∀ w, Leads P (k w)) → Leads P (.draw k)

/-- What may follow a host step: each further one has its gap before it. -/
inductive After : HostTree α → Prop
  | ret (a) : After (.ret a)
  | fail (f) : After (.fail f)
  | params (k) : (∀ p, After (k p)) → After (.params k)
  | gap (x k) : (∀ w, After (k w)) → After (.gap (.act x k))
  | draw (k) : (∀ w, Leads HostStep.isAccess (k w)) → (∀ w, After (k w)) → After (.draw k)

/-- What an operation may be: no gap before its first host step. -/
inductive Starts : HostTree α → Prop
  | fail (f) : Starts (.fail f)
  | params (k) : (∀ p, Starts (k p)) → Starts (.params k)
  | act (x k) : (∀ w, After (k w)) → Starts (.act x k)

theorem Leads.mono {P Q : HostStep → Prop} {t : HostTree α} (ht : Leads P t) (h : ∀ x, P x → Q x) : Leads Q t := by
  induction ht with
  | gap x k hx => exact .gap x k (h x hx)
  | draw k _ ih => exact .draw k ih

theorem Leads.bind {P : HostStep → Prop} {t : HostTree α} (ht : Leads P t) (f : α → HostTree β) : Leads P (t.bind f) := by
  induction ht with
  | gap x k hx => exact .gap x _ hx
  | draw k _ ih => exact .draw _ ih

theorem After.bind {t : HostTree α} (ht : After t) {f : α → HostTree β} (hf : ∀ a, After (f a)) :
    After (t.bind f) := by
  induction ht with
  | ret a => exact hf a
  | fail e => exact .fail e
  | params k _ ih => exact .params _ ih
  | gap x k _ ih => exact .gap x _ ih
  | draw k hl _ ih => exact .draw _ (fun w => (hl w).bind f) ih

theorem Starts.bind {t : HostTree α} (ht : Starts t) {f : α → HostTree β} (hf : ∀ a, After (f a)) :
    Starts (t.bind f) := by
  induction ht with
  | fail e => exact .fail e
  | params k _ ih => exact .params _ ih
  | act x k hk => exact .act x _ fun w => (hk w).bind hf

end HostTree

/-- Nothing follows a failure. -/
structure Driver.Lawful {m : Type → Type} [Monad m] (h : Driver m) : Prop where
  fail_bind : ∀ {α β : Type} (f : Fault) (k : α → m β), (h.fail f >>= k) = h.fail f

theorem HostTree.run_bind {α β : Type} {m : Type → Type} [Monad m] [LawfulMonad m] {h : Driver m} (hl : h.Lawful)
    (t : HostTree α) (f : α → HostTree β) : (t.bind f).run h = t.run h >>= fun a => (f a).run h := by
  induction t with
  | ret a => simp [HostTree.bind, HostTree.run]
  | fail e => simp [HostTree.bind, HostTree.run, hl.fail_bind]
  | gap k ih => simp [HostTree.bind, HostTree.run, ih]
  | draw k ih => simp [HostTree.bind, HostTree.run, ih]
  | params k ih => simp [HostTree.bind, HostTree.run, ih]
  | act x k ih => simp [HostTree.bind, HostTree.run, ih]

theorem atOnce_lawful : atOnce.Lawful := ⟨fun _ _ => rfl⟩
theorem byTurns_lawful : byTurns.Lawful := ⟨fun _ _ => rfl⟩

/-- One tree stands behind both ways of carrying out a program. -/
def Both {α : Type} (P : HostTree α → Prop) (p : Prog α) (q : TurnProg α) : Prop :=
  ∃ t, P t ∧ t.run atOnce = p ∧ t.run byTurns = q

theorem Both.after_bind {α β : Type} {p : Prog α} {q : TurnProg α} {f : α → Prog β} {g : α → TurnProg β}
    (hp : Both HostTree.After p q) (hf : ∀ a, Both HostTree.After (f a) (g a)) :
    Both HostTree.After (p >>= f) (q >>= g) := by
  obtain ⟨t, ht, rfl, rfl⟩ := hp
  choose u hu h1 h2 using hf
  refine ⟨t.bind u, ht.bind hu, ?_, ?_⟩
  · rw [HostTree.run_bind atOnce_lawful]; simp [h1]
  · rw [HostTree.run_bind byTurns_lawful]; simp [h2]

theorem Both.starts_bind {α β : Type} {p : Prog α} {q : TurnProg α} {f : α → Prog β} {g : α → TurnProg β}
    (hp : Both HostTree.Starts p q) (hf : ∀ a, Both HostTree.After (f a) (g a)) :
    Both HostTree.Starts (p >>= f) (q >>= g) := by
  obtain ⟨t, ht, rfl, rfl⟩ := hp
  choose u hu h1 h2 using hf
  refine ⟨t.bind u, ht.bind hu, ?_, ?_⟩
  · rw [HostTree.run_bind atOnce_lawful]; simp [h1]
  · rw [HostTree.run_bind byTurns_lawful]; simp [h2]

theorem Both.pure {α : Type} (a : α) : Both HostTree.After (pure a) (pure a) := ⟨.ret a, .ret a, rfl, rfl⟩

theorem Both.fail {α : Type} (f : Fault) : Both (α := α) HostTree.Starts (atOnce.fail f) (byTurns.fail f) :=
  ⟨.fail f, .fail f, rfl, rfl⟩

theorem Both.params_starts {α : Type} {f : Params → Prog α} {g : Params → TurnProg α}
    (hf : ∀ p, Both HostTree.Starts (f p) (g p)) :
    Both HostTree.Starts (atOnce.params >>= f) (byTurns.params >>= g) := by
  choose u hu h1 h2 using hf
  exact ⟨.params u, .params u hu, by simp [HostTree.run, h1], by simp [HostTree.run, h2]⟩

theorem Both.params_after {α : Type} {f : Params → Prog α} {g : Params → TurnProg α}
    (hf : ∀ p, Both HostTree.After (f p) (g p)) :
    Both HostTree.After (atOnce.params >>= f) (byTurns.params >>= g) := by
  choose u hu h1 h2 using hf
  exact ⟨.params u, .params u hu, by simp [HostTree.run, h1], by simp [HostTree.run, h2]⟩

theorem Both.read (i : Inst) (r : Reg) : Both HostTree.Starts (atOnce.read i r) (byTurns.read i r) :=
  ⟨.act (.read i r) .ret, .act _ _ fun w => .ret w, by simp [HostTree.run, HostStep.perform],
    by simp [HostTree.run, HostStep.perform]⟩

theorem Both.thenRead (i : Inst) (r : Reg) : Both HostTree.After (atOnce.thenRead i r) (byTurns.thenRead i r) :=
  ⟨.gap (.act (.read i r) .ret), .gap _ _ fun w => .ret w, by simp [HostTree.run, HostStep.perform, Driver.thenRead],
    by simp [HostTree.run, HostStep.perform, Driver.thenRead]⟩

theorem Both.thenWrite (i : Inst) (r : Reg) (v : BusWord) :
    Both HostTree.After (atOnce.thenWrite i r v) (byTurns.thenWrite i r v) :=
  ⟨.gap (.act (.write i r v) fun _ => .ret ()), .gap _ _ fun w => .ret _,
    by simp [HostTree.run, HostStep.perform, Driver.thenWrite, answersZero],
    by simp [HostTree.run, HostStep.perform, Driver.thenWrite, answersZero]⟩

theorem Both.rmw (i : Inst) (r : Reg) (clr set : Word) :
    Both HostTree.Starts (atOnce.rmw i r clr set) (byTurns.rmw i r clr set) :=
  (Both.read i r).starts_bind fun _ => Both.thenWrite i r _

theorem Both.thenRmw (i : Inst) (r : Reg) (clr set : Word) :
    Both HostTree.After (atOnce.thenRmw i r clr set) (byTurns.thenRmw i r clr set) := by
  have h : Both HostTree.After (atOnce.thenRead i r >>= fun v => atOnce.thenWrite i r (v.update clr set))
      (byTurns.thenRead i r >>= fun v => byTurns.thenWrite i r (v.update clr set)) :=
    (Both.thenRead i r).after_bind fun _ => Both.thenWrite i r _
  simpa [Driver.thenRmw, Driver.rmw, Driver.thenRead] using h

theorem Both.draws {α : Type} {f : Word → Word → Prog α} {g : Word → Word → TurnProg α} (i : Inst) (r : Reg)
    (v : Word → Word → BusWord) (hf : ∀ a b, Both HostTree.After (f a b) (g a b)) :
    Both HostTree.After (do let a ← atOnce.draw; let b ← atOnce.draw; atOnce.thenWrite i r (v a b); f a b)
      (do let a ← byTurns.draw; let b ← byTurns.draw; byTurns.thenWrite i r (v a b); g a b) := by
  choose u hu h1 h2 using hf
  refine ⟨.draw fun a => .draw fun b => .gap (.act (.write i r (v a b)) fun _ => u a b), ?_, ?_, ?_⟩
  · exact .draw _ (fun a => .draw _ fun b => .gap _ _ trivial)
      fun a => .draw _ (fun b => .gap _ _ trivial) fun b => .gap _ _ fun _ => hu a b
  · simp [HostTree.run, HostStep.perform, Driver.thenWrite, answersZero, h1]
  · simp [HostTree.run, HostStep.perform, Driver.thenWrite, answersZero, h2]

/-! ## The operations -/

section
variable (hpoll : ∀ (i : Inst) (want : Bool) (n : Nat) (s : State), pollInak i want n s = pollLoop i want n s)
include hpoll

theorem Both.poll (i : Inst) (want : Bool) : ∀ n, Both HostTree.After (atOnce.poll i want n) (byTurns.poll i want n) := by
  intro n
  have h : ∀ n, Both HostTree.After (pollLoop i want n) (turnPoll i want n) := by
    intro n
    induction n with
    | zero => exact Both.pure false
    | succ n ih =>
      have h : Both HostTree.After
          (atOnce.thenRead i .msr >>= fun v => if v.bit 0 = want then Pure.pure true else pollLoop i want n)
          (byTurns.thenRead i .msr >>= fun v => if v.bit 0 = want then Pure.pure true else turnPoll i want n) :=
        (Both.thenRead i .msr).after_bind fun v => by
          by_cases hv : v.bit 0 = want <;> simp only [hv, if_true, if_false]
          · exact Both.pure true
          · exact ih
      simpa [Driver.thenRead, pollLoop, turnPoll, byTurns] using h
  have e : atOnce.poll i want n = pollLoop i want n := funext fun s => hpoll i want n s
  rw [e]
  exact h n

theorem Both.blocking (i : Inst) (want : Bool) {p : Prog Unit} {q : TurnProg Unit} (hp : Both HostTree.Starts p q) :
    Both HostTree.Starts (do p; let u ← atOnce.params; atOnce.poll i want u.pollBound)
      (do q; let u ← byTurns.params; byTurns.poll i want u.pollBound) :=
  hp.starts_bind fun _ => Both.params_after fun u => Both.poll hpoll i want u.pollBound

end

theorem Both.thenBankBit (i : Inst) (r : Reg) (b : Word) (on : Bool) :
    Both HostTree.After (Machine.thenBankBit atOnce i r b on) (Machine.thenBankBit byTurns i r b on) := by
  cases on <;> exact Both.thenRmw ..

theorem Both.ite {α : Type} {P : HostTree α → Prop} {b : Bool} {p p' : Prog α} {q q' : TurnProg α} (h : Both P p q)
    (h' : Both P p' q') : Both P (if b then p else p') (if b then q else q') := by
  cases b <;> assumption

theorem Both.configureFilter (self : Instr) (i : Inst) (bank : Nat) (s l : Bool) (r1 r2 : Word) (f : Nat) (e : Bool) :
    Both HostTree.Starts (Machine.configureFilter atOnce self i bank s l r1 r2 f e)
      (Machine.configureFilter byTurns self i bank s l r1 r2 f e) := by
  refine Both.params_starts fun p => ?_
  split
  · exact Both.fail _
  · exact Both.fail _
  · refine (Both.rmw ..).starts_bind fun _ => (Both.thenRmw ..).after_bind fun _ => (Both.thenBankBit ..).after_bind
      fun _ => (Both.thenBankBit ..).after_bind fun _ => (Both.thenBankBit ..).after_bind fun _ =>
      (Both.thenWrite ..).after_bind fun _ => (Both.thenWrite ..).after_bind fun _ => ?_
    cases e
    · exact Both.thenRmw ..
    · exact (Both.thenRmw ..).after_bind fun _ => Both.thenRmw ..

theorem Both.returnsNone {p : Prog Unit} {q : TurnProg Unit} (h : Both HostTree.Starts p q) :
    Both HostTree.Starts (Machine.returnsNone p) (Machine.returnsNone q) := h.starts_bind fun _ => Both.pure _
theorem Both.returnsFlag {p : Prog Bool} {q : TurnProg Bool} (h : Both HostTree.Starts p q) :
    Both HostTree.Starts (Machine.returnsFlag p) (Machine.returnsFlag q) := h.starts_bind fun _ => Both.pure _

theorem Both.reset (i : Inst) : Both HostTree.Starts (resetProg atOnce i) (resetProg byTurns i) :=
  ⟨.act (.assertReset i) fun _ => .gap (.act (.clearReset i) fun _ => .ret ()),
    .act _ _ fun _ => .gap _ _ fun _ => .ret (),
    by simp [HostTree.run, HostStep.perform, answersZero, resetProg],
    by simp [HostTree.run, HostStep.perform, answersZero, resetProg]⟩

theorem Both.fillMailbox (i : Inst) (x : MbIx) (id : Word) (ext rtr : Bool) (n : Nat) (d : List Byte) :
    Both HostTree.After (Machine.fillMailbox atOnce i x id ext rtr n d) (Machine.fillMailbox byTurns i x id ext rtr n d) := by
  refine (Both.thenWrite ..).after_bind fun _ => ?_
  have tail := (Both.thenRmw i (.tdtr x) 0xF (BitVec.ofNat 32 (n % 16))).after_bind fun _ =>
    Both.draws (f := fun _ hi => do atOnce.thenWrite i (.tdhr x) (payloadWord n d 4 hi); atOnce.thenRmw i (.tir x) 0 0x1)
      (g := fun _ hi => do byTurns.thenWrite i (.tdhr x) (payloadWord n d 4 hi); byTurns.thenRmw i (.tir x) 0 0x1)
      i (.tdlr x) (fun lo _ => payloadWord n d 0 lo)
      fun _ _ => (Both.thenWrite ..).after_bind fun _ => Both.thenRmw ..
  cases rtr
  · exact tail
  · exact (Both.thenRmw ..).after_bind fun _ => tail

theorem Both.transmit (i : Inst) (id : Word) (ext rtr : Bool) (n : Nat) (d : List Byte) :
    Both HostTree.Starts (transmitCall atOnce i id ext rtr n d) (transmitCall byTurns i id ext rtr n d) := by
  refine Both.starts_bind (p := transmitProg atOnce i id ext rtr n d) (q := transmitProg byTurns i id ext rtr n d) ?_
    fun _ => Both.pure _
  refine (Both.read ..).starts_bind fun t => ?_
  split
  · exact Both.pure _
  · exact (Both.fillMailbox ..).after_bind fun _ => Both.pure _

theorem Both.receive (i : Inst) (f : Nat) (a : Bool) :
    Both HostTree.Starts (receiveCall atOnce i f a) (receiveCall byTurns i f a) := by
  unfold receiveCall
  split
  · exact Both.fail _
  · rename_i x _
    refine Both.starts_bind (p := receiveProg atOnce i x a) (q := receiveProg byTurns i x a) ?_ fun _ => Both.pure _
    refine (Both.read ..).starts_bind fun r => (Both.thenRead ..).after_bind fun t => (Both.thenRead ..).after_bind
      fun lo => (Both.thenRead ..).after_bind fun hi => ?_
    cases a
    · exact Both.pure _
    · exact (Both.thenRmw ..).after_bind fun _ => Both.pure _

theorem Both.release (i : Inst) (f : Nat) :
    Both HostTree.Starts (releaseFifoProg atOnce i f) (releaseFifoProg byTurns i f) := by
  unfold releaseFifoProg
  split
  · exact Both.fail _
  · exact Both.rmw ..

/-- Every operation of several host steps is one tree, if the counted polling of `exec` is the loop (log 12). -/
theorem callProg_tree
    (hpoll : ∀ (i : Inst) (want : Bool) (n : Nat) (s : State), pollInak i want n s = pollLoop i want n s) {op : Instr} {q : TurnProg Result} (h : callProg op = some q) :
    ∃ t : HostTree Result, t.Starts ∧ t.run byTurns = q ∧ ∀ s, exec op s = finish (t.run atOnce) s := by
  suffices hb : ∃ p, Both HostTree.Starts p q ∧ ∀ s, exec op s = finish p s by
    obtain ⟨p, ⟨t, ht, rfl, rfl⟩, hs⟩ := hb
    exact ⟨t, ht, rfl, hs⟩
  cases op <;> simp only [callProg, reduceCtorEq, Option.some.injEq] at h <;> subst h
  case opReset i => exact ⟨_, (Both.reset i).returnsNone, fun _ => rfl⟩
  case opEnterInit i => exact ⟨_, (Both.rmw ..).returnsNone, fun _ => rfl⟩
  case opLeaveInit i => exact ⟨_, (Both.rmw ..).returnsNone, fun _ => rfl⟩
  case opEnterSleep i => exact ⟨_, (Both.rmw ..).returnsNone, fun _ => rfl⟩
  case opLeaveSleep i => exact ⟨_, (Both.rmw ..).returnsNone, fun _ => rfl⟩
  case opEnterInitBlocking i => exact ⟨_, (Both.blocking hpoll i true (Both.rmw ..)).returnsFlag, fun _ => rfl⟩
  case opLeaveInitBlocking i => exact ⟨_, (Both.blocking hpoll i false (Both.rmw ..)).returnsFlag, fun _ => rfl⟩
  case opApplyTiming i t =>
    exact ⟨_, Both.returnsNone (Both.ite (Both.rmw ..) (Both.fail _)), fun _ => rfl⟩
  case opConfigureFilter => exact ⟨_, (Both.configureFilter ..).returnsNone, fun _ => rfl⟩
  case opFilterIdMask16 => exact ⟨_, (Both.configureFilter ..).returnsNone, fun _ => rfl⟩
  case opFilterIdMask32 => exact ⟨_, (Both.params_starts fun _ => Both.configureFilter ..).returnsNone, fun _ => rfl⟩
  case opFilterIdList16 => exact ⟨_, (Both.configureFilter ..).returnsNone, fun _ => rfl⟩
  case opFilterIdList32 => exact ⟨_, (Both.params_starts fun _ => Both.configureFilter ..).returnsNone, fun _ => rfl⟩
  case opTransmit => exact ⟨_, Both.transmit .., fun _ => rfl⟩
  case opReceive => exact ⟨_, Both.receive .., fun _ => rfl⟩
  case opReleaseFifo => exact ⟨_, (Both.release ..).returnsNone, fun _ => rfl⟩

/-! ## Host steps -/

/-- What a host step answers, where the host gets `w`. -/
def HostStep.answer (w : BusWord) : HostStep → BusWord
  | .read _ _ => w
  | _ => .ofWord 0

theorem perform_turns (x : HostStep) (t : Turn) :
    x.perform byTurns t = match turnPoint true (x.perform atOnce) t with
      | .ok (w, t') => .ok (x.answer w, t')
      | .error e => .error e := by
  cases x with
  | read i r =>
    show turnPoint true (regRead i r) t = _
    simp only [HostStep.perform, atOnce_read, HostStep.answer]
    split <;> simp_all
  | write i r v =>
    simp only [HostStep.perform, answersZero, byTurns, turnUnit, turnBind, atOnce_write, HostStep.answer]
    cases turnPoint true (do regWrite i r v; pure (BusWord.ofWord 0)) t <;> rfl
  | assertReset i =>
    simp only [HostStep.perform, answersZero, byTurns, turnUnit, turnBind, atOnce_assertReset, HostStep.answer]
    cases turnPoint true (do resetAssert i; pure (BusWord.ofWord 0)) t <;> rfl
  | clearReset i =>
    simp only [HostStep.perform, answersZero, byTurns, turnUnit, turnBind, atOnce_clearReset, HostStep.answer]
    cases turnPoint true (do Machine.resetClear i; pure (BusWord.ofWord 0)) t <;> rfl

theorem perform_answer {x : HostStep} {s s' : State} {w : BusWord} (h : x.perform atOnce s = .ok (w, s')) :
    x.answer w = w := by
  cases x with
  | read i r => rfl
  | write i r v =>
    simp only [HostStep.perform, answersZero, progBind] at h
    split at h <;> cases h; rfl
  | assertReset i =>
    simp only [HostStep.perform, answersZero, progBind] at h
    split at h <;> cases h; rfl
  | clearReset i =>
    simp only [HostStep.perform, answersZero, progBind] at h
    split at h <;> cases h; rfl

theorem perform_calling (x : HostStep) (s : State) (c : Option Call) :
    x.perform atOnce (s.calling c) = (x.perform atOnce s).map fun a => (a.1, a.2.calling c) := by
  cases x with
  | read i r =>
    simp only [HostStep.perform, atOnce_read, regRead, checkAccess_calling]
    split
    · rfl
    · simp [readRule_calling, Except.map]
  | write i r v =>
    simp only [HostStep.perform, atOnce_write, answersZero, progBind, regWrite, checkAccess_calling, writeRule_calling]
    cases checkAccess s (Access.write i r v.whole) r with
    | some f => rfl
    | none => cases writeRule (Access.write i r v.whole) s i v r <;> rfl
  | assertReset i =>
    simp only [HostStep.perform, atOnce_assertReset, answersZero, progBind]
    have h : resetAssert i (s.calling c) = (resetAssert i s).map fun a => (a.1, a.2.calling c) := by
      unfold resetAssert resetCheck
      simp only [State.calling_params, State.can_calling, State.setCan_calling]
      cases hasInst s.params i <;> rfl
    rw [h]
    cases resetAssert i s <;> rfl
  | clearReset i =>
    simp only [HostStep.perform, atOnce_clearReset, answersZero, progBind]
    have h0 : Machine.clearReset i (s.calling c) = (Machine.clearReset i s).calling c := by
      unfold Machine.clearReset
      simp only [State.calling_draws, State.setCan_calling, State.takeDraws_calling, State.calling_params]
      split <;> rfl
    have h : Machine.resetClear i (s.calling c) = (Machine.resetClear i s).map fun a => (a.1, a.2.calling c) := by
      unfold Machine.resetClear resetCheck
      simp only [State.calling_params, h0]
      cases hasInst s.params i <;> rfl
    rw [h]
    cases Machine.resetClear i s <;> rfl

theorem perform_params {x : HostStep} {s s' : State} {w : BusWord} (h : x.perform atOnce s = .ok (w, s')) :
    s'.params = s.params := by
  cases x with
  | read i r => obtain ⟨_, _, rfl⟩ := regRead_cases h; rfl
  | write i r v =>
    simp only [HostStep.perform, answersZero, progBind, atOnce_write] at h
    split at h <;> cases h
    rename_i hw
    obtain ⟨_, hw⟩ := regWrite_cases hw
    cases r <;> simp only [writeRule, Except.map] at hw <;>
      first
        | (split at hw <;> cases hw <;> simp)
        | (cases hw; simp)
  | assertReset i =>
    simp only [HostStep.perform, answersZero, progBind, atOnce_assertReset, resetAssert] at h
    split at h <;> cases h
    rename_i hw
    split at hw <;> cases hw; simp
  | clearReset i =>
    simp only [HostStep.perform, answersZero, progBind, atOnce_clearReset, Machine.resetClear] at h
    split at h <;> cases h
    rename_i hw
    split at hw <;> cases hw
    simp only [Machine.clearReset]
    split <;> simp

/-! ## The turns of a tree add up to it -/

open HostTree

/-- What a turn answers. -/
def turnOut (op : Instr) (e : Except Halt (Result × Turn)) : Host.Outcome State Fault Refusal :=
  match e with
  | .ok (r, t) => .next ((t.state.calling none).returning r)
  | .error (.waits t) => .next (t.state.calling (some { op, answers := t.taken }))
  | .error (.stop (.fault f)) => .fault f
  | .error (.stop (.refused r)) => .refused r

theorem finish_stop {p : Prog Result} {s : State} {e : Stop} (h : p s = .error e) :
    finish p s = turnOut (.opReset .can1) (.error (.stop e)) := by
  unfold finish; rw [h]; cases e <;> rfl

section
variable (op : Instr) (T : TurnProg Result) (hq : callProg op = some T) (p : Params)

/-- With the answers `L` gone through again, the operation `T` goes on with the tree `t`. -/
def ResumesAt (L : List BusWord) (t : HostTree Result) : Prop :=
  ∀ L' s, s.params = p → T { answers := L ++ L', taken := [], made := false, state := s }
    = t.run byTurns { answers := L', taken := L, made := false, state := s }

/-- Right after a host step, `t` is what is left: the turn and those after it reach the outcome of `t` at once. -/
def AddsUpFrom (t : HostTree Result) : Prop := ∀ L s, After t → ResumesAt T p L t → s.params = p →
  ∃ n, Outcome.andThen (turnOut op (t.run byTurns ⟨[], L, true, s⟩)) (stepsFrom n) = finish (t.run atOnce) (s.calling none)

/-- At the start of a turn, the gap before it taken, the same. -/
def AddsUpAfterGap (t : HostTree Result) : Prop := ∀ L s s1, After t → Leads (fun _ => True) t → ResumesAt T p L t → s.params = p →
  afterGap s1 = s.calling none →
  ∃ n, Outcome.andThen (turnOut op (t.run byTurns ⟨[], L, false, s⟩)) (stepsFrom n) = finish (t.run atOnce) s1

theorem turn_eq (op : Instr) (L : List BusWord) (T : TurnProg Result) (s : State) :
    turn op L T s = turnOut op (T ⟨L, [], false, s⟩) := rfl

/-- A host step made in this turn, and the rest of its turns. -/
theorem act_adds_up (x : HostStep) (k : BusWord → HostTree Result) (ih : ∀ w, AddsUpFrom op T p (k w)) (L s)
    (ha : ∀ w, After (k w)) (hr : ResumesAt T p L (.act x k)) (hs : s.params = p) :
    ∃ n, Outcome.andThen (turnOut op ((HostTree.act x k).run byTurns ⟨[], L, false, s⟩)) (stepsFrom n)
      = finish ((HostTree.act x k).run atOnce) (s.calling none) := by
  have hc := perform_calling x s none
  have ht := perform_turns x ⟨[], L, false, s⟩
  simp only [turnPoint] at ht
  cases hp : x.perform atOnce s with
  | error e =>
    rw [hp] at hc ht
    refine ⟨0, ?_⟩
    rw [finish_stop (e := e)]
    · simp only [HostTree.run]
      rw [turnBind_stop ht]
      cases e <;> rfl
    · simp only [HostTree.run]
      rw [progBind, hc]; rfl
  | ok a =>
    obtain ⟨w, s'⟩ := a
    rw [hp] at hc ht
    have hrest : ResumesAt T p (L ++ [w]) (k w) := by
      intro L' u hu
      have := hr (w :: L') u hu
      rw [List.append_assoc]; simp only [List.singleton_append]
      rw [this]
      have ht' := perform_turns x ⟨w :: L', L, false, u⟩
      simp only [turnPoint] at ht'
      simp only [HostTree.run]
      rw [turnBind_ok ht', perform_answer hp]
    obtain ⟨n, hn⟩ := ih w (L ++ [w]) s' (ha w) hrest (by rw [perform_params hp, hs])
    refine ⟨n, ?_⟩
    simp only [HostTree.run]
    rw [turnBind_ok ht, perform_answer hp, hn]
    unfold finish
    rw [progBind, hc]; rfl

include hq in
/-- A turn that ends before a further host step, and the turns from that step on. -/
theorem wait_adds_up (t : HostTree Result) (h2 : AddsUpAfterGap op T p t) (L : List BusWord) (s : State) (ha : After t) (hl : Leads (fun _ => True) t)
    (hr : ResumesAt T p L t) (hs : s.params = p) (hw : t.run byTurns ⟨[], L, true, s⟩ = .error (.waits ⟨[], L, true, s⟩)) :
    ∃ n, Outcome.andThen (turnOut op (t.run byTurns ⟨[], L, true, s⟩)) (stepsFrom n) = finish (t.run atOnce) (s.calling none) := by
  obtain ⟨n, hn⟩ := h2 L (afterGap (s.calling (some ⟨op, L⟩))) (s.calling none) ha hl hr (by simp [hs])
    (by simp)
  obtain ⟨k, _, hk⟩ := stepsFrom_hostTurn_any (s.calling (some ⟨op, L⟩)) n
  refine ⟨k, ?_⟩
  rw [hw]
  show stepsFrom k (s.calling (some ⟨op, L⟩)) = _
  rw [hk]
  have hc : (afterGap (s.calling (some ⟨op, L⟩))).call = some ⟨op, L⟩ := by simp
  have : hostTurn (afterGap (s.calling (some ⟨op, L⟩)))
      = turnOut op (T ⟨L, [], false, afterGap (s.calling (some ⟨op, L⟩))⟩) := by
    unfold hostTurn
    rw [hc]
    simp only [continueCall, hq]
    rfl
  rw [this, ← hn]
  have e := hr [] (afterGap (s.calling (some ⟨op, L⟩))) (by simp [hs])
  rw [List.append_nil] at e
  rw [e]

include hq in
/-- The turns of a tree add up to it, from whatever place in it. -/
theorem turns_add_up (t : HostTree Result) : AddsUpFrom op T p t ∧ AddsUpAfterGap op T p t ∧ (∀ x k, t = .act x k → ∀ w, AddsUpFrom op T p (k w)) := by
  induction t with
  | ret a =>
    exact ⟨fun L s _ _ _ => ⟨0, rfl⟩, fun L s s1 _ h => by (cases h), fun _ _ h => by cases h⟩
  | fail f => exact ⟨fun L s _ _ _ => ⟨0, rfl⟩, fun L s s1 _ h => by (cases h), fun _ _ h => by cases h⟩
  | params k ih =>
    refine ⟨fun L s ha hr hs => ?_, fun L s s1 _ h => by (cases h), fun _ _ h => by cases h⟩
    cases ha with | params _ ha =>
    have hp : byTurns.params ⟨[], L, true, s⟩ = .ok (p, ⟨[], L, true, s⟩) := by rw [← hs]; rfl
    obtain ⟨n, hn⟩ := (ih p).1 L s (ha p) (fun L' u hu => by
      rw [hr L' u hu]; simp only [HostTree.run]
      rw [turnBind_ok (a := p) (t' := ⟨L', L, false, u⟩) (by rw [← hu]; rfl)]) hs
    refine ⟨n, ?_⟩
    simp only [HostTree.run]
    rw [turnBind_ok hp, hn]
    unfold finish
    rw [progBind, atOnce_params_eq]
    simp only [State.calling_params, hs]
  | act x k ih =>
    exact ⟨fun L s h => by (cases h), fun L s s1 _ h => by (cases h), fun x' k' h w => by cases h; exact (ih w).1⟩
  | gap t ih =>
    have c2 : AddsUpAfterGap op T p (.gap t) := by
      intro L s s1 ha hl hr hs hg
      cases hl with | gap x k hx =>
      cases ha with | gap _ _ ha =>
      have key : ∀ w, AddsUpFrom op T p (k w) := ih.2.2 x k rfl
      obtain ⟨n, hn⟩ := act_adds_up op T p x k key L s ha (fun L' u hu => by rw [hr L' u hu]; rfl) hs
      refine ⟨n, ?_⟩
      have e1 : (HostTree.gap (HostTree.act x k)).run byTurns ⟨[], L, false, s⟩ = (HostTree.act x k).run byTurns ⟨[], L, false, s⟩ := rfl
      rw [e1, hn]
      unfold finish
      have e2 : (HostTree.gap (HostTree.act x k)).run atOnce s1 = (HostTree.act x k).run atOnce (s.calling none) := by
        rw [← hg]; rfl
      rw [e2]
    refine ⟨fun L s ha hr hs => ?_, c2, fun _ _ h => by cases h⟩
    cases ha with | gap x k ha =>
    refine wait_adds_up op T hq p _ c2 L s (.gap x k ha) (.gap x k trivial) hr hs ?_
    have h0 := perform_turns x ⟨[], L, true, s⟩
    rw [turnPoint_made] at h0
    show (HostTree.act x k).run byTurns _ = _
    simp only [HostTree.run]
    exact turnBind_stop h0
  | draw k ih =>
    have c2 : AddsUpAfterGap op T p (.draw k) := by
      intro L s s1 ha hl hr hs hg
      cases hl with | draw _ hl =>
      cases ha with | draw _ _ ha =>
      have hd : s1.draws = s.draws := by
        have := congrArg State.draws hg
        simpa using this
      have h1 : ∀ L' u (w : BusWord), (HostTree.draw k).run byTurns ⟨w :: L', L, false, u⟩ = (k w.val).run byTurns ⟨L', L ++ [w], false, u⟩ := by
        intro L' u w; rfl
      have h2 : (HostTree.draw k).run byTurns ⟨[], L, false, s⟩
          = (k (Config.draw s.draws)).run byTurns ⟨[], L ++ [.ofWord (Config.draw s.draws)], false, s.takeDraws 1⟩ := rfl
      obtain ⟨n, hn⟩ := (ih (Config.draw s.draws)).2.1 (L ++ [.ofWord (Config.draw s.draws)]) (s.takeDraws 1) (s1.takeDraws 1)
        (ha _) (hl _) (fun L' u hu => by
          rw [List.append_assoc]
          exact (hr _ u hu).trans (h1 L' u (.ofWord (Config.draw s.draws)))) (by simpa using hs)
        (by rw [afterGap_takeDraws, hg]; rfl)
      refine ⟨n, ?_⟩
      rw [h2, hn]
      unfold finish
      have e2 : (HostTree.draw k).run atOnce s1 = (k (Config.draw s.draws)).run atOnce (s1.takeDraws 1) := by
        rw [← hd]; rfl
      rw [e2]
    refine ⟨fun L s ha hr hs => ?_, c2, fun _ _ h => by cases h⟩
    cases ha with | draw _ hl ha =>
    exact wait_adds_up op T hq p _ c2 L s (.draw _ hl ha) (.draw _ fun w => (hl w).mono fun _ _ => trivial) hr hs rfl

include hq in
/-- From its first host step on, the turns of a whole operation add up to it. -/
theorem issue_adds_up (t : HostTree Result) (ht : Starts t) : ∀ s, s.params = p → ResumesAt T p [] t →
    ∃ n, Outcome.andThen (turnOut op (t.run byTurns ⟨[], [], false, s⟩)) (stepsFrom n) = finish (t.run atOnce) (s.calling none) := by
  induction ht with
  | fail f => exact fun _ _ _ => ⟨0, rfl⟩
  | params k _ ih =>
    intro s hs hr
    have hp : byTurns.params ⟨[], [], false, s⟩ = .ok (p, ⟨[], [], false, s⟩) := by rw [← hs]; rfl
    obtain ⟨n, hn⟩ := ih p s hs (fun L' u hu => by
      rw [hr L' u hu]; simp only [HostTree.run]
      rw [turnBind_ok (a := p) (t' := ⟨L', [], false, u⟩) (by rw [← hu]; rfl)])
    refine ⟨n, ?_⟩
    simp only [HostTree.run]
    rw [turnBind_ok hp, hn]
    unfold finish
    rw [progBind, atOnce_params_eq]
    simp only [State.calling_params, hs]
  | act x k hk =>
    intro s hs hr
    exact act_adds_up op T p x k (fun w => (turns_add_up op T hq p (k w)).1) [] s hk hr hs
end


end Sys2Proof.Machine
end

