-- ==== Sys2Proof/Laws/PerInstr.lean ====
section
/-! SUPPORT. The family `TableWord`, one lemma per instruction: the encoding of an instruction begins with the word its
row of spec/opcode_table.json gives, in the row's format (30_encoding.md R150, R154). The words below are the table's
own, written out, not computed from the encoder. -/

namespace Sys2Proof.Laws

/-- The word of an instruction's row of the opcode table: its format, its width in bytes and its value. -/
def tableWord : Instr → Format × Nat × Nat
  | .rdMCR _ => (.access, 2, 0x000)
  | .wrMCR _ _ => (.access, 2, 0x400)
  | .rdMSR _ => (.access, 2, 0x004)
  | .wrMSR _ _ => (.access, 2, 0x404)
  | .rdTSR _ => (.access, 2, 0x008)
  | .wrTSR _ _ => (.access, 2, 0x408)
  | .rdRF0R _ => (.access, 2, 0x00c)
  | .wrRF0R _ _ => (.access, 2, 0x40c)
  | .rdRF1R _ => (.access, 2, 0x010)
  | .wrRF1R _ _ => (.access, 2, 0x410)
  | .rdIER _ => (.access, 2, 0x014)
  | .wrIER _ _ => (.access, 2, 0x414)
  | .rdESR _ => (.access, 2, 0x018)
  | .wrESR _ _ => (.access, 2, 0x418)
  | .rdBTR _ => (.access, 2, 0x01c)
  | .wrBTR _ _ => (.access, 2, 0x41c)
  | .rdTI0R _ => (.access, 2, 0x180)
  | .wrTI0R _ _ => (.access, 2, 0x580)
  | .rdTDT0R _ => (.access, 2, 0x184)
  | .wrTDT0R _ _ => (.access, 2, 0x584)
  | .rdTDL0R _ => (.access, 2, 0x188)
  | .wrTDL0R _ _ => (.access, 2, 0x588)
  | .rdTDH0R _ => (.access, 2, 0x18c)
  | .wrTDH0R _ _ => (.access, 2, 0x58c)
  | .rdTI1R _ => (.access, 2, 0x190)
  | .wrTI1R _ _ => (.access, 2, 0x590)
  | .rdTDT1R _ => (.access, 2, 0x194)
  | .wrTDT1R _ _ => (.access, 2, 0x594)
  | .rdTDL1R _ => (.access, 2, 0x198)
  | .wrTDL1R _ _ => (.access, 2, 0x598)
  | .rdTDH1R _ => (.access, 2, 0x19c)
  | .wrTDH1R _ _ => (.access, 2, 0x59c)
  | .rdTI2R _ => (.access, 2, 0x1a0)
  | .wrTI2R _ _ => (.access, 2, 0x5a0)
  | .rdTDT2R _ => (.access, 2, 0x1a4)
  | .wrTDT2R _ _ => (.access, 2, 0x5a4)
  | .rdTDL2R _ => (.access, 2, 0x1a8)
  | .wrTDL2R _ _ => (.access, 2, 0x5a8)
  | .rdTDH2R _ => (.access, 2, 0x1ac)
  | .wrTDH2R _ _ => (.access, 2, 0x5ac)
  | .rdRI0R _ => (.access, 2, 0x1b0)
  | .wrRI0R _ _ => (.access, 2, 0x5b0)
  | .rdRDT0R _ => (.access, 2, 0x1b4)
  | .wrRDT0R _ _ => (.access, 2, 0x5b4)
  | .rdRDL0R _ => (.access, 2, 0x1b8)
  | .wrRDL0R _ _ => (.access, 2, 0x5b8)
  | .rdRDH0R _ => (.access, 2, 0x1bc)
  | .wrRDH0R _ _ => (.access, 2, 0x5bc)
  | .rdRI1R _ => (.access, 2, 0x1c0)
  | .wrRI1R _ _ => (.access, 2, 0x5c0)
  | .rdRDT1R _ => (.access, 2, 0x1c4)
  | .wrRDT1R _ _ => (.access, 2, 0x5c4)
  | .rdRDL1R _ => (.access, 2, 0x1c8)
  | .wrRDL1R _ _ => (.access, 2, 0x5c8)
  | .rdRDH1R _ => (.access, 2, 0x1cc)
  | .wrRDH1R _ _ => (.access, 2, 0x5cc)
  | .rdFMR _ => (.access, 2, 0x200)
  | .wrFMR _ _ => (.access, 2, 0x600)
  | .rdFM1R _ => (.access, 2, 0x204)
  | .wrFM1R _ _ => (.access, 2, 0x604)
  | .rdFS1R _ => (.access, 2, 0x20c)
  | .wrFS1R _ _ => (.access, 2, 0x60c)
  | .rdFFA1R _ => (.access, 2, 0x214)
  | .wrFFA1R _ _ => (.access, 2, 0x614)
  | .rdFA1R _ => (.access, 2, 0x21c)
  | .wrFA1R _ _ => (.access, 2, 0x61c)
  | .rdF0R1 _ => (.access, 2, 0x240)
  | .wrF0R1 _ _ => (.access, 2, 0x640)
  | .rdF0R2 _ => (.access, 2, 0x244)
  | .wrF0R2 _ _ => (.access, 2, 0x644)
  | .rdF1R1 _ => (.access, 2, 0x248)
  | .wrF1R1 _ _ => (.access, 2, 0x648)
  | .rdF1R2 _ => (.access, 2, 0x24c)
  | .wrF1R2 _ _ => (.access, 2, 0x64c)
  | .rdF2R1 _ => (.access, 2, 0x250)
  | .wrF2R1 _ _ => (.access, 2, 0x650)
  | .rdF2R2 _ => (.access, 2, 0x254)
  | .wrF2R2 _ _ => (.access, 2, 0x654)
  | .rdF3R1 _ => (.access, 2, 0x258)
  | .wrF3R1 _ _ => (.access, 2, 0x658)
  | .rdF3R2 _ => (.access, 2, 0x25c)
  | .wrF3R2 _ _ => (.access, 2, 0x65c)
  | .rdF4R1 _ => (.access, 2, 0x260)
  | .wrF4R1 _ _ => (.access, 2, 0x660)
  | .rdF4R2 _ => (.access, 2, 0x264)
  | .wrF4R2 _ _ => (.access, 2, 0x664)
  | .rdF5R1 _ => (.access, 2, 0x268)
  | .wrF5R1 _ _ => (.access, 2, 0x668)
  | .rdF5R2 _ => (.access, 2, 0x26c)
  | .wrF5R2 _ _ => (.access, 2, 0x66c)
  | .rdF6R1 _ => (.access, 2, 0x270)
  | .wrF6R1 _ _ => (.access, 2, 0x670)
  | .rdF6R2 _ => (.access, 2, 0x274)
  | .wrF6R2 _ _ => (.access, 2, 0x674)
  | .rdF7R1 _ => (.access, 2, 0x278)
  | .wrF7R1 _ _ => (.access, 2, 0x678)
  | .rdF7R2 _ => (.access, 2, 0x27c)
  | .wrF7R2 _ _ => (.access, 2, 0x67c)
  | .rdF8R1 _ => (.access, 2, 0x280)
  | .wrF8R1 _ _ => (.access, 2, 0x680)
  | .rdF8R2 _ => (.access, 2, 0x284)
  | .wrF8R2 _ _ => (.access, 2, 0x684)
  | .rdF9R1 _ => (.access, 2, 0x288)
  | .wrF9R1 _ _ => (.access, 2, 0x688)
  | .rdF9R2 _ => (.access, 2, 0x28c)
  | .wrF9R2 _ _ => (.access, 2, 0x68c)
  | .rdF10R1 _ => (.access, 2, 0x290)
  | .wrF10R1 _ _ => (.access, 2, 0x690)
  | .rdF10R2 _ => (.access, 2, 0x294)
  | .wrF10R2 _ _ => (.access, 2, 0x694)
  | .rdF11R1 _ => (.access, 2, 0x298)
  | .wrF11R1 _ _ => (.access, 2, 0x698)
  | .rdF11R2 _ => (.access, 2, 0x29c)
  | .wrF11R2 _ _ => (.access, 2, 0x69c)
  | .rdF12R1 _ => (.access, 2, 0x2a0)
  | .wrF12R1 _ _ => (.access, 2, 0x6a0)
  | .rdF12R2 _ => (.access, 2, 0x2a4)
  | .wrF12R2 _ _ => (.access, 2, 0x6a4)
  | .rdF13R1 _ => (.access, 2, 0x2a8)
  | .wrF13R1 _ _ => (.access, 2, 0x6a8)
  | .rdF13R2 _ => (.access, 2, 0x2ac)
  | .wrF13R2 _ _ => (.access, 2, 0x6ac)
  | .rdF14R1 _ => (.access, 2, 0x2b0)
  | .wrF14R1 _ _ => (.access, 2, 0x6b0)
  | .rdF14R2 _ => (.access, 2, 0x2b4)
  | .wrF14R2 _ _ => (.access, 2, 0x6b4)
  | .rdF15R1 _ => (.access, 2, 0x2b8)
  | .wrF15R1 _ _ => (.access, 2, 0x6b8)
  | .rdF15R2 _ => (.access, 2, 0x2bc)
  | .wrF15R2 _ _ => (.access, 2, 0x6bc)
  | .rdF16R1 _ => (.access, 2, 0x2c0)
  | .wrF16R1 _ _ => (.access, 2, 0x6c0)
  | .rdF16R2 _ => (.access, 2, 0x2c4)
  | .wrF16R2 _ _ => (.access, 2, 0x6c4)
  | .rdF17R1 _ => (.access, 2, 0x2c8)
  | .wrF17R1 _ _ => (.access, 2, 0x6c8)
  | .rdF17R2 _ => (.access, 2, 0x2cc)
  | .wrF17R2 _ _ => (.access, 2, 0x6cc)
  | .rdF18R1 _ => (.access, 2, 0x2d0)
  | .wrF18R1 _ _ => (.access, 2, 0x6d0)
  | .rdF18R2 _ => (.access, 2, 0x2d4)
  | .wrF18R2 _ _ => (.access, 2, 0x6d4)
  | .rdF19R1 _ => (.access, 2, 0x2d8)
  | .wrF19R1 _ _ => (.access, 2, 0x6d8)
  | .rdF19R2 _ => (.access, 2, 0x2dc)
  | .wrF19R2 _ _ => (.access, 2, 0x6dc)
  | .rdF20R1 _ => (.access, 2, 0x2e0)
  | .wrF20R1 _ _ => (.access, 2, 0x6e0)
  | .rdF20R2 _ => (.access, 2, 0x2e4)
  | .wrF20R2 _ _ => (.access, 2, 0x6e4)
  | .rdF21R1 _ => (.access, 2, 0x2e8)
  | .wrF21R1 _ _ => (.access, 2, 0x6e8)
  | .rdF21R2 _ => (.access, 2, 0x2ec)
  | .wrF21R2 _ _ => (.access, 2, 0x6ec)
  | .rdF22R1 _ => (.access, 2, 0x2f0)
  | .wrF22R1 _ _ => (.access, 2, 0x6f0)
  | .rdF22R2 _ => (.access, 2, 0x2f4)
  | .wrF22R2 _ _ => (.access, 2, 0x6f4)
  | .rdF23R1 _ => (.access, 2, 0x2f8)
  | .wrF23R1 _ _ => (.access, 2, 0x6f8)
  | .rdF23R2 _ => (.access, 2, 0x2fc)
  | .wrF23R2 _ _ => (.access, 2, 0x6fc)
  | .rdF24R1 _ => (.access, 2, 0x300)
  | .wrF24R1 _ _ => (.access, 2, 0x700)
  | .rdF24R2 _ => (.access, 2, 0x304)
  | .wrF24R2 _ _ => (.access, 2, 0x704)
  | .rdF25R1 _ => (.access, 2, 0x308)
  | .wrF25R1 _ _ => (.access, 2, 0x708)
  | .rdF25R2 _ => (.access, 2, 0x30c)
  | .wrF25R2 _ _ => (.access, 2, 0x70c)
  | .rdF26R1 _ => (.access, 2, 0x310)
  | .wrF26R1 _ _ => (.access, 2, 0x710)
  | .rdF26R2 _ => (.access, 2, 0x314)
  | .wrF26R2 _ _ => (.access, 2, 0x714)
  | .rdF27R1 _ => (.access, 2, 0x318)
  | .wrF27R1 _ _ => (.access, 2, 0x718)
  | .rdF27R2 _ => (.access, 2, 0x31c)
  | .wrF27R2 _ _ => (.access, 2, 0x71c)
  | .opReset _ => (.operation, 1, 0x00)
  | .opEnterInit _ => (.operation, 1, 0x01)
  | .opLeaveInit _ => (.operation, 1, 0x02)
  | .opEnterSleep _ => (.operation, 1, 0x03)
  | .opLeaveSleep _ => (.operation, 1, 0x04)
  | .opIsInit _ => (.operation, 1, 0x05)
  | .opIsSleep _ => (.operation, 1, 0x06)
  | .opEnterInitBlocking _ => (.operation, 1, 0x07)
  | .opLeaveInitBlocking _ => (.operation, 1, 0x08)
  | .opComputeTiming _ _ _ => (.operation, 1, 0x20)
  | .opApplyTiming _ _ => (.operation, 1, 0x21)
  | .opGetEffectiveBitrate _ _ => (.operation, 1, 0x22)
  | .opConfigureFilter _ _ _ _ _ _ _ _ => (.operation, 1, 0x40)
  | .opFilterIdMask16 _ _ _ _ _ _ _ _ => (.operation, 1, 0x41)
  | .opFilterIdMask32 _ _ _ _ _ _ => (.operation, 1, 0x42)
  | .opFilterIdList16 _ _ _ _ _ _ _ _ => (.operation, 1, 0x43)
  | .opFilterIdList32 _ _ _ _ _ _ => (.operation, 1, 0x44)
  | .opGetEmptyMailbox _ => (.operation, 1, 0x60)
  | .opTransmit _ _ _ _ _ _ => (.operation, 1, 0x61)
  | .opAvailableMailbox _ => (.operation, 1, 0x62)
  | .opReceive _ _ _ => (.operation, 1, 0x80)
  | .opReleaseFifo _ _ => (.operation, 1, 0x81)

/-- The encoding begins with the row's word, in the row's format. -/
def TableWord.Statement (i : Instr) : Prop :=
  (encode i).fmt = (tableWord i).1 ∧ leBytes (tableWord i).2.1 (tableWord i).2.2 <+: (encode i).bytes

theorem TableWord.of_read (r : Reg) (i : Inst) (n : Nat) (h : (r.accessWord false).toNat = n) :
    leBytes 2 n <+: (encodeRead r i).bytes := by
  subst h
  simp only [encodeRead, Access.bytes, Access.read, List.append_assoc]
  exact List.prefix_append _ _

theorem TableWord.of_write (r : Reg) (i : Inst) (v : Word) (n : Nat) (h : (r.accessWord true).toNat = n) :
    leBytes 2 n <+: (encodeWrite r i v).bytes := by
  subst h
  simp only [encodeWrite, Access.bytes, Access.write, List.append_assoc]
  exact List.prefix_append _ _

theorem TableWord.of_op (sel : Byte) (operands : List Byte) (n : Nat) (h : BitVec.ofNat 8 n = sel) :
    leBytes 1 n <+: (encodeOp sel operands).bytes := by
  subst h
  exact List.prefix_append _ _

theorem TableWord.rdMCR (i : Inst) : TableWord.Statement (.rdMCR i) :=
  ⟨rfl, TableWord.of_read _ _ _ rfl⟩

theorem TableWord.wrMCR (i : Inst) (v : Word) : TableWord.Statement (.wrMCR i v) :=
  ⟨rfl, TableWord.of_write _ _ _ _ rfl⟩

theorem TableWord.rdMSR (i : Inst) : TableWord.Statement (.rdMSR i) :=
  ⟨rfl, TableWord.of_read _ _ _ rfl⟩

theorem TableWord.wrMSR (i : Inst) (v : Word) : TableWord.Statement (.wrMSR i v) :=
  ⟨rfl, TableWord.of_write _ _ _ _ rfl⟩

theorem TableWord.rdTSR (i : Inst) : TableWord.Statement (.rdTSR i) :=
  ⟨rfl, TableWord.of_read _ _ _ rfl⟩

theorem TableWord.wrTSR (i : Inst) (v : Word) : TableWord.Statement (.wrTSR i v) :=
  ⟨rfl, TableWord.of_write _ _ _ _ rfl⟩

theorem TableWord.rdRF0R (i : Inst) : TableWord.Statement (.rdRF0R i) :=
  ⟨rfl, TableWord.of_read _ _ _ rfl⟩

theorem TableWord.wrRF0R (i : Inst) (v : Word) : TableWord.Statement (.wrRF0R i v) :=
  ⟨rfl, TableWord.of_write _ _ _ _ rfl⟩

theorem TableWord.rdRF1R (i : Inst) : TableWord.Statement (.rdRF1R i) :=
  ⟨rfl, TableWord.of_read _ _ _ rfl⟩

theorem TableWord.wrRF1R (i : Inst) (v : Word) : TableWord.Statement (.wrRF1R i v) :=
  ⟨rfl, TableWord.of_write _ _ _ _ rfl⟩

theorem TableWord.rdIER (i : Inst) : TableWord.Statement (.rdIER i) :=
  ⟨rfl, TableWord.of_read _ _ _ rfl⟩

theorem TableWord.wrIER (i : Inst) (v : Word) : TableWord.Statement (.wrIER i v) :=
  ⟨rfl, TableWord.of_write _ _ _ _ rfl⟩

theorem TableWord.rdESR (i : Inst) : TableWord.Statement (.rdESR i) :=
  ⟨rfl, TableWord.of_read _ _ _ rfl⟩

theorem TableWord.wrESR (i : Inst) (v : Word) : TableWord.Statement (.wrESR i v) :=
  ⟨rfl, TableWord.of_write _ _ _ _ rfl⟩

theorem TableWord.rdBTR (i : Inst) : TableWord.Statement (.rdBTR i) :=
  ⟨rfl, TableWord.of_read _ _ _ rfl⟩

theorem TableWord.wrBTR (i : Inst) (v : Word) : TableWord.Statement (.wrBTR i v) :=
  ⟨rfl, TableWord.of_write _ _ _ _ rfl⟩

theorem TableWord.rdTI0R (i : Inst) : TableWord.Statement (.rdTI0R i) :=
  ⟨rfl, TableWord.of_read _ _ _ rfl⟩

theorem TableWord.wrTI0R (i : Inst) (v : Word) : TableWord.Statement (.wrTI0R i v) :=
  ⟨rfl, TableWord.of_write _ _ _ _ rfl⟩

theorem TableWord.rdTDT0R (i : Inst) : TableWord.Statement (.rdTDT0R i) :=
  ⟨rfl, TableWord.of_read _ _ _ rfl⟩

theorem TableWord.wrTDT0R (i : Inst) (v : Word) : TableWord.Statement (.wrTDT0R i v) :=
  ⟨rfl, TableWord.of_write _ _ _ _ rfl⟩

theorem TableWord.rdTDL0R (i : Inst) : TableWord.Statement (.rdTDL0R i) :=
  ⟨rfl, TableWord.of_read _ _ _ rfl⟩

theorem TableWord.wrTDL0R (i : Inst) (v : Word) : TableWord.Statement (.wrTDL0R i v) :=
  ⟨rfl, TableWord.of_write _ _ _ _ rfl⟩

theorem TableWord.rdTDH0R (i : Inst) : TableWord.Statement (.rdTDH0R i) :=
  ⟨rfl, TableWord.of_read _ _ _ rfl⟩

theorem TableWord.wrTDH0R (i : Inst) (v : Word) : TableWord.Statement (.wrTDH0R i v) :=
  ⟨rfl, TableWord.of_write _ _ _ _ rfl⟩

theorem TableWord.rdTI1R (i : Inst) : TableWord.Statement (.rdTI1R i) :=
  ⟨rfl, TableWord.of_read _ _ _ rfl⟩

theorem TableWord.wrTI1R (i : Inst) (v : Word) : TableWord.Statement (.wrTI1R i v) :=
  ⟨rfl, TableWord.of_write _ _ _ _ rfl⟩

theorem TableWord.rdTDT1R (i : Inst) : TableWord.Statement (.rdTDT1R i) :=
  ⟨rfl, TableWord.of_read _ _ _ rfl⟩

theorem TableWord.wrTDT1R (i : Inst) (v : Word) : TableWord.Statement (.wrTDT1R i v) :=
  ⟨rfl, TableWord.of_write _ _ _ _ rfl⟩

theorem TableWord.rdTDL1R (i : Inst) : TableWord.Statement (.rdTDL1R i) :=
  ⟨rfl, TableWord.of_read _ _ _ rfl⟩

theorem TableWord.wrTDL1R (i : Inst) (v : Word) : TableWord.Statement (.wrTDL1R i v) :=
  ⟨rfl, TableWord.of_write _ _ _ _ rfl⟩

theorem TableWord.rdTDH1R (i : Inst) : TableWord.Statement (.rdTDH1R i) :=
  ⟨rfl, TableWord.of_read _ _ _ rfl⟩

theorem TableWord.wrTDH1R (i : Inst) (v : Word) : TableWord.Statement (.wrTDH1R i v) :=
  ⟨rfl, TableWord.of_write _ _ _ _ rfl⟩

theorem TableWord.rdTI2R (i : Inst) : TableWord.Statement (.rdTI2R i) :=
  ⟨rfl, TableWord.of_read _ _ _ rfl⟩

theorem TableWord.wrTI2R (i : Inst) (v : Word) : TableWord.Statement (.wrTI2R i v) :=
  ⟨rfl, TableWord.of_write _ _ _ _ rfl⟩

theorem TableWord.rdTDT2R (i : Inst) : TableWord.Statement (.rdTDT2R i) :=
  ⟨rfl, TableWord.of_read _ _ _ rfl⟩

theorem TableWord.wrTDT2R (i : Inst) (v : Word) : TableWord.Statement (.wrTDT2R i v) :=
  ⟨rfl, TableWord.of_write _ _ _ _ rfl⟩

theorem TableWord.rdTDL2R (i : Inst) : TableWord.Statement (.rdTDL2R i) :=
  ⟨rfl, TableWord.of_read _ _ _ rfl⟩

theorem TableWord.wrTDL2R (i : Inst) (v : Word) : TableWord.Statement (.wrTDL2R i v) :=
  ⟨rfl, TableWord.of_write _ _ _ _ rfl⟩

theorem TableWord.rdTDH2R (i : Inst) : TableWord.Statement (.rdTDH2R i) :=
  ⟨rfl, TableWord.of_read _ _ _ rfl⟩

theorem TableWord.wrTDH2R (i : Inst) (v : Word) : TableWord.Statement (.wrTDH2R i v) :=
  ⟨rfl, TableWord.of_write _ _ _ _ rfl⟩

theorem TableWord.rdRI0R (i : Inst) : TableWord.Statement (.rdRI0R i) :=
  ⟨rfl, TableWord.of_read _ _ _ rfl⟩

theorem TableWord.wrRI0R (i : Inst) (v : Word) : TableWord.Statement (.wrRI0R i v) :=
  ⟨rfl, TableWord.of_write _ _ _ _ rfl⟩

theorem TableWord.rdRDT0R (i : Inst) : TableWord.Statement (.rdRDT0R i) :=
  ⟨rfl, TableWord.of_read _ _ _ rfl⟩

theorem TableWord.wrRDT0R (i : Inst) (v : Word) : TableWord.Statement (.wrRDT0R i v) :=
  ⟨rfl, TableWord.of_write _ _ _ _ rfl⟩

theorem TableWord.rdRDL0R (i : Inst) : TableWord.Statement (.rdRDL0R i) :=
  ⟨rfl, TableWord.of_read _ _ _ rfl⟩

theorem TableWord.wrRDL0R (i : Inst) (v : Word) : TableWord.Statement (.wrRDL0R i v) :=
  ⟨rfl, TableWord.of_write _ _ _ _ rfl⟩

theorem TableWord.rdRDH0R (i : Inst) : TableWord.Statement (.rdRDH0R i) :=
  ⟨rfl, TableWord.of_read _ _ _ rfl⟩

theorem TableWord.wrRDH0R (i : Inst) (v : Word) : TableWord.Statement (.wrRDH0R i v) :=
  ⟨rfl, TableWord.of_write _ _ _ _ rfl⟩

theorem TableWord.rdRI1R (i : Inst) : TableWord.Statement (.rdRI1R i) :=
  ⟨rfl, TableWord.of_read _ _ _ rfl⟩

theorem TableWord.wrRI1R (i : Inst) (v : Word) : TableWord.Statement (.wrRI1R i v) :=
  ⟨rfl, TableWord.of_write _ _ _ _ rfl⟩

theorem TableWord.rdRDT1R (i : Inst) : TableWord.Statement (.rdRDT1R i) :=
  ⟨rfl, TableWord.of_read _ _ _ rfl⟩

theorem TableWord.wrRDT1R (i : Inst) (v : Word) : TableWord.Statement (.wrRDT1R i v) :=
  ⟨rfl, TableWord.of_write _ _ _ _ rfl⟩

theorem TableWord.rdRDL1R (i : Inst) : TableWord.Statement (.rdRDL1R i) :=
  ⟨rfl, TableWord.of_read _ _ _ rfl⟩

theorem TableWord.wrRDL1R (i : Inst) (v : Word) : TableWord.Statement (.wrRDL1R i v) :=
  ⟨rfl, TableWord.of_write _ _ _ _ rfl⟩

theorem TableWord.rdRDH1R (i : Inst) : TableWord.Statement (.rdRDH1R i) :=
  ⟨rfl, TableWord.of_read _ _ _ rfl⟩

theorem TableWord.wrRDH1R (i : Inst) (v : Word) : TableWord.Statement (.wrRDH1R i v) :=
  ⟨rfl, TableWord.of_write _ _ _ _ rfl⟩

theorem TableWord.rdFMR (i : Inst) : TableWord.Statement (.rdFMR i) :=
  ⟨rfl, TableWord.of_read _ _ _ rfl⟩

theorem TableWord.wrFMR (i : Inst) (v : Word) : TableWord.Statement (.wrFMR i v) :=
  ⟨rfl, TableWord.of_write _ _ _ _ rfl⟩

theorem TableWord.rdFM1R (i : Inst) : TableWord.Statement (.rdFM1R i) :=
  ⟨rfl, TableWord.of_read _ _ _ rfl⟩

theorem TableWord.wrFM1R (i : Inst) (v : Word) : TableWord.Statement (.wrFM1R i v) :=
  ⟨rfl, TableWord.of_write _ _ _ _ rfl⟩

theorem TableWord.rdFS1R (i : Inst) : TableWord.Statement (.rdFS1R i) :=
  ⟨rfl, TableWord.of_read _ _ _ rfl⟩

theorem TableWord.wrFS1R (i : Inst) (v : Word) : TableWord.Statement (.wrFS1R i v) :=
  ⟨rfl, TableWord.of_write _ _ _ _ rfl⟩

theorem TableWord.rdFFA1R (i : Inst) : TableWord.Statement (.rdFFA1R i) :=
  ⟨rfl, TableWord.of_read _ _ _ rfl⟩

theorem TableWord.wrFFA1R (i : Inst) (v : Word) : TableWord.Statement (.wrFFA1R i v) :=
  ⟨rfl, TableWord.of_write _ _ _ _ rfl⟩

theorem TableWord.rdFA1R (i : Inst) : TableWord.Statement (.rdFA1R i) :=
  ⟨rfl, TableWord.of_read _ _ _ rfl⟩

theorem TableWord.wrFA1R (i : Inst) (v : Word) : TableWord.Statement (.wrFA1R i v) :=
  ⟨rfl, TableWord.of_write _ _ _ _ rfl⟩

theorem TableWord.rdF0R1 (i : Inst) : TableWord.Statement (.rdF0R1 i) :=
  ⟨rfl, TableWord.of_read _ _ _ rfl⟩

theorem TableWord.wrF0R1 (i : Inst) (v : Word) : TableWord.Statement (.wrF0R1 i v) :=
  ⟨rfl, TableWord.of_write _ _ _ _ rfl⟩

theorem TableWord.rdF0R2 (i : Inst) : TableWord.Statement (.rdF0R2 i) :=
  ⟨rfl, TableWord.of_read _ _ _ rfl⟩

theorem TableWord.wrF0R2 (i : Inst) (v : Word) : TableWord.Statement (.wrF0R2 i v) :=
  ⟨rfl, TableWord.of_write _ _ _ _ rfl⟩

theorem TableWord.rdF1R1 (i : Inst) : TableWord.Statement (.rdF1R1 i) :=
  ⟨rfl, TableWord.of_read _ _ _ rfl⟩

theorem TableWord.wrF1R1 (i : Inst) (v : Word) : TableWord.Statement (.wrF1R1 i v) :=
  ⟨rfl, TableWord.of_write _ _ _ _ rfl⟩

theorem TableWord.rdF1R2 (i : Inst) : TableWord.Statement (.rdF1R2 i) :=
  ⟨rfl, TableWord.of_read _ _ _ rfl⟩

theorem TableWord.wrF1R2 (i : Inst) (v : Word) : TableWord.Statement (.wrF1R2 i v) :=
  ⟨rfl, TableWord.of_write _ _ _ _ rfl⟩

theorem TableWord.rdF2R1 (i : Inst) : TableWord.Statement (.rdF2R1 i) :=
  ⟨rfl, TableWord.of_read _ _ _ rfl⟩

theorem TableWord.wrF2R1 (i : Inst) (v : Word) : TableWord.Statement (.wrF2R1 i v) :=
  ⟨rfl, TableWord.of_write _ _ _ _ rfl⟩

theorem TableWord.rdF2R2 (i : Inst) : TableWord.Statement (.rdF2R2 i) :=
  ⟨rfl, TableWord.of_read _ _ _ rfl⟩

theorem TableWord.wrF2R2 (i : Inst) (v : Word) : TableWord.Statement (.wrF2R2 i v) :=
  ⟨rfl, TableWord.of_write _ _ _ _ rfl⟩

theorem TableWord.rdF3R1 (i : Inst) : TableWord.Statement (.rdF3R1 i) :=
  ⟨rfl, TableWord.of_read _ _ _ rfl⟩

theorem TableWord.wrF3R1 (i : Inst) (v : Word) : TableWord.Statement (.wrF3R1 i v) :=
  ⟨rfl, TableWord.of_write _ _ _ _ rfl⟩

theorem TableWord.rdF3R2 (i : Inst) : TableWord.Statement (.rdF3R2 i) :=
  ⟨rfl, TableWord.of_read _ _ _ rfl⟩

theorem TableWord.wrF3R2 (i : Inst) (v : Word) : TableWord.Statement (.wrF3R2 i v) :=
  ⟨rfl, TableWord.of_write _ _ _ _ rfl⟩

theorem TableWord.rdF4R1 (i : Inst) : TableWord.Statement (.rdF4R1 i) :=
  ⟨rfl, TableWord.of_read _ _ _ rfl⟩

theorem TableWord.wrF4R1 (i : Inst) (v : Word) : TableWord.Statement (.wrF4R1 i v) :=
  ⟨rfl, TableWord.of_write _ _ _ _ rfl⟩

theorem TableWord.rdF4R2 (i : Inst) : TableWord.Statement (.rdF4R2 i) :=
  ⟨rfl, TableWord.of_read _ _ _ rfl⟩

theorem TableWord.wrF4R2 (i : Inst) (v : Word) : TableWord.Statement (.wrF4R2 i v) :=
  ⟨rfl, TableWord.of_write _ _ _ _ rfl⟩

theorem TableWord.rdF5R1 (i : Inst) : TableWord.Statement (.rdF5R1 i) :=
  ⟨rfl, TableWord.of_read _ _ _ rfl⟩

theorem TableWord.wrF5R1 (i : Inst) (v : Word) : TableWord.Statement (.wrF5R1 i v) :=
  ⟨rfl, TableWord.of_write _ _ _ _ rfl⟩

theorem TableWord.rdF5R2 (i : Inst) : TableWord.Statement (.rdF5R2 i) :=
  ⟨rfl, TableWord.of_read _ _ _ rfl⟩

theorem TableWord.wrF5R2 (i : Inst) (v : Word) : TableWord.Statement (.wrF5R2 i v) :=
  ⟨rfl, TableWord.of_write _ _ _ _ rfl⟩

theorem TableWord.rdF6R1 (i : Inst) : TableWord.Statement (.rdF6R1 i) :=
  ⟨rfl, TableWord.of_read _ _ _ rfl⟩

theorem TableWord.wrF6R1 (i : Inst) (v : Word) : TableWord.Statement (.wrF6R1 i v) :=
  ⟨rfl, TableWord.of_write _ _ _ _ rfl⟩

theorem TableWord.rdF6R2 (i : Inst) : TableWord.Statement (.rdF6R2 i) :=
  ⟨rfl, TableWord.of_read _ _ _ rfl⟩

theorem TableWord.wrF6R2 (i : Inst) (v : Word) : TableWord.Statement (.wrF6R2 i v) :=
  ⟨rfl, TableWord.of_write _ _ _ _ rfl⟩

theorem TableWord.rdF7R1 (i : Inst) : TableWord.Statement (.rdF7R1 i) :=
  ⟨rfl, TableWord.of_read _ _ _ rfl⟩

theorem TableWord.wrF7R1 (i : Inst) (v : Word) : TableWord.Statement (.wrF7R1 i v) :=
  ⟨rfl, TableWord.of_write _ _ _ _ rfl⟩

theorem TableWord.rdF7R2 (i : Inst) : TableWord.Statement (.rdF7R2 i) :=
  ⟨rfl, TableWord.of_read _ _ _ rfl⟩

theorem TableWord.wrF7R2 (i : Inst) (v : Word) : TableWord.Statement (.wrF7R2 i v) :=
  ⟨rfl, TableWord.of_write _ _ _ _ rfl⟩

theorem TableWord.rdF8R1 (i : Inst) : TableWord.Statement (.rdF8R1 i) :=
  ⟨rfl, TableWord.of_read _ _ _ rfl⟩

theorem TableWord.wrF8R1 (i : Inst) (v : Word) : TableWord.Statement (.wrF8R1 i v) :=
  ⟨rfl, TableWord.of_write _ _ _ _ rfl⟩

theorem TableWord.rdF8R2 (i : Inst) : TableWord.Statement (.rdF8R2 i) :=
  ⟨rfl, TableWord.of_read _ _ _ rfl⟩

theorem TableWord.wrF8R2 (i : Inst) (v : Word) : TableWord.Statement (.wrF8R2 i v) :=
  ⟨rfl, TableWord.of_write _ _ _ _ rfl⟩

theorem TableWord.rdF9R1 (i : Inst) : TableWord.Statement (.rdF9R1 i) :=
  ⟨rfl, TableWord.of_read _ _ _ rfl⟩

theorem TableWord.wrF9R1 (i : Inst) (v : Word) : TableWord.Statement (.wrF9R1 i v) :=
  ⟨rfl, TableWord.of_write _ _ _ _ rfl⟩

theorem TableWord.rdF9R2 (i : Inst) : TableWord.Statement (.rdF9R2 i) :=
  ⟨rfl, TableWord.of_read _ _ _ rfl⟩

theorem TableWord.wrF9R2 (i : Inst) (v : Word) : TableWord.Statement (.wrF9R2 i v) :=
  ⟨rfl, TableWord.of_write _ _ _ _ rfl⟩

theorem TableWord.rdF10R1 (i : Inst) : TableWord.Statement (.rdF10R1 i) :=
  ⟨rfl, TableWord.of_read _ _ _ rfl⟩

theorem TableWord.wrF10R1 (i : Inst) (v : Word) : TableWord.Statement (.wrF10R1 i v) :=
  ⟨rfl, TableWord.of_write _ _ _ _ rfl⟩

theorem TableWord.rdF10R2 (i : Inst) : TableWord.Statement (.rdF10R2 i) :=
  ⟨rfl, TableWord.of_read _ _ _ rfl⟩

theorem TableWord.wrF10R2 (i : Inst) (v : Word) : TableWord.Statement (.wrF10R2 i v) :=
  ⟨rfl, TableWord.of_write _ _ _ _ rfl⟩

theorem TableWord.rdF11R1 (i : Inst) : TableWord.Statement (.rdF11R1 i) :=
  ⟨rfl, TableWord.of_read _ _ _ rfl⟩

theorem TableWord.wrF11R1 (i : Inst) (v : Word) : TableWord.Statement (.wrF11R1 i v) :=
  ⟨rfl, TableWord.of_write _ _ _ _ rfl⟩

theorem TableWord.rdF11R2 (i : Inst) : TableWord.Statement (.rdF11R2 i) :=
  ⟨rfl, TableWord.of_read _ _ _ rfl⟩

theorem TableWord.wrF11R2 (i : Inst) (v : Word) : TableWord.Statement (.wrF11R2 i v) :=
  ⟨rfl, TableWord.of_write _ _ _ _ rfl⟩

theorem TableWord.rdF12R1 (i : Inst) : TableWord.Statement (.rdF12R1 i) :=
  ⟨rfl, TableWord.of_read _ _ _ rfl⟩

theorem TableWord.wrF12R1 (i : Inst) (v : Word) : TableWord.Statement (.wrF12R1 i v) :=
  ⟨rfl, TableWord.of_write _ _ _ _ rfl⟩

theorem TableWord.rdF12R2 (i : Inst) : TableWord.Statement (.rdF12R2 i) :=
  ⟨rfl, TableWord.of_read _ _ _ rfl⟩

theorem TableWord.wrF12R2 (i : Inst) (v : Word) : TableWord.Statement (.wrF12R2 i v) :=
  ⟨rfl, TableWord.of_write _ _ _ _ rfl⟩

theorem TableWord.rdF13R1 (i : Inst) : TableWord.Statement (.rdF13R1 i) :=
  ⟨rfl, TableWord.of_read _ _ _ rfl⟩

theorem TableWord.wrF13R1 (i : Inst) (v : Word) : TableWord.Statement (.wrF13R1 i v) :=
  ⟨rfl, TableWord.of_write _ _ _ _ rfl⟩

theorem TableWord.rdF13R2 (i : Inst) : TableWord.Statement (.rdF13R2 i) :=
  ⟨rfl, TableWord.of_read _ _ _ rfl⟩

theorem TableWord.wrF13R2 (i : Inst) (v : Word) : TableWord.Statement (.wrF13R2 i v) :=
  ⟨rfl, TableWord.of_write _ _ _ _ rfl⟩

theorem TableWord.rdF14R1 (i : Inst) : TableWord.Statement (.rdF14R1 i) :=
  ⟨rfl, TableWord.of_read _ _ _ rfl⟩

theorem TableWord.wrF14R1 (i : Inst) (v : Word) : TableWord.Statement (.wrF14R1 i v) :=
  ⟨rfl, TableWord.of_write _ _ _ _ rfl⟩

theorem TableWord.rdF14R2 (i : Inst) : TableWord.Statement (.rdF14R2 i) :=
  ⟨rfl, TableWord.of_read _ _ _ rfl⟩

theorem TableWord.wrF14R2 (i : Inst) (v : Word) : TableWord.Statement (.wrF14R2 i v) :=
  ⟨rfl, TableWord.of_write _ _ _ _ rfl⟩

theorem TableWord.rdF15R1 (i : Inst) : TableWord.Statement (.rdF15R1 i) :=
  ⟨rfl, TableWord.of_read _ _ _ rfl⟩

theorem TableWord.wrF15R1 (i : Inst) (v : Word) : TableWord.Statement (.wrF15R1 i v) :=
  ⟨rfl, TableWord.of_write _ _ _ _ rfl⟩

theorem TableWord.rdF15R2 (i : Inst) : TableWord.Statement (.rdF15R2 i) :=
  ⟨rfl, TableWord.of_read _ _ _ rfl⟩

theorem TableWord.wrF15R2 (i : Inst) (v : Word) : TableWord.Statement (.wrF15R2 i v) :=
  ⟨rfl, TableWord.of_write _ _ _ _ rfl⟩

theorem TableWord.rdF16R1 (i : Inst) : TableWord.Statement (.rdF16R1 i) :=
  ⟨rfl, TableWord.of_read _ _ _ rfl⟩

theorem TableWord.wrF16R1 (i : Inst) (v : Word) : TableWord.Statement (.wrF16R1 i v) :=
  ⟨rfl, TableWord.of_write _ _ _ _ rfl⟩

theorem TableWord.rdF16R2 (i : Inst) : TableWord.Statement (.rdF16R2 i) :=
  ⟨rfl, TableWord.of_read _ _ _ rfl⟩

theorem TableWord.wrF16R2 (i : Inst) (v : Word) : TableWord.Statement (.wrF16R2 i v) :=
  ⟨rfl, TableWord.of_write _ _ _ _ rfl⟩

theorem TableWord.rdF17R1 (i : Inst) : TableWord.Statement (.rdF17R1 i) :=
  ⟨rfl, TableWord.of_read _ _ _ rfl⟩

theorem TableWord.wrF17R1 (i : Inst) (v : Word) : TableWord.Statement (.wrF17R1 i v) :=
  ⟨rfl, TableWord.of_write _ _ _ _ rfl⟩

theorem TableWord.rdF17R2 (i : Inst) : TableWord.Statement (.rdF17R2 i) :=
  ⟨rfl, TableWord.of_read _ _ _ rfl⟩

theorem TableWord.wrF17R2 (i : Inst) (v : Word) : TableWord.Statement (.wrF17R2 i v) :=
  ⟨rfl, TableWord.of_write _ _ _ _ rfl⟩

theorem TableWord.rdF18R1 (i : Inst) : TableWord.Statement (.rdF18R1 i) :=
  ⟨rfl, TableWord.of_read _ _ _ rfl⟩

theorem TableWord.wrF18R1 (i : Inst) (v : Word) : TableWord.Statement (.wrF18R1 i v) :=
  ⟨rfl, TableWord.of_write _ _ _ _ rfl⟩

theorem TableWord.rdF18R2 (i : Inst) : TableWord.Statement (.rdF18R2 i) :=
  ⟨rfl, TableWord.of_read _ _ _ rfl⟩

theorem TableWord.wrF18R2 (i : Inst) (v : Word) : TableWord.Statement (.wrF18R2 i v) :=
  ⟨rfl, TableWord.of_write _ _ _ _ rfl⟩

theorem TableWord.rdF19R1 (i : Inst) : TableWord.Statement (.rdF19R1 i) :=
  ⟨rfl, TableWord.of_read _ _ _ rfl⟩

theorem TableWord.wrF19R1 (i : Inst) (v : Word) : TableWord.Statement (.wrF19R1 i v) :=
  ⟨rfl, TableWord.of_write _ _ _ _ rfl⟩

theorem TableWord.rdF19R2 (i : Inst) : TableWord.Statement (.rdF19R2 i) :=
  ⟨rfl, TableWord.of_read _ _ _ rfl⟩

theorem TableWord.wrF19R2 (i : Inst) (v : Word) : TableWord.Statement (.wrF19R2 i v) :=
  ⟨rfl, TableWord.of_write _ _ _ _ rfl⟩

theorem TableWord.rdF20R1 (i : Inst) : TableWord.Statement (.rdF20R1 i) :=
  ⟨rfl, TableWord.of_read _ _ _ rfl⟩

theorem TableWord.wrF20R1 (i : Inst) (v : Word) : TableWord.Statement (.wrF20R1 i v) :=
  ⟨rfl, TableWord.of_write _ _ _ _ rfl⟩

theorem TableWord.rdF20R2 (i : Inst) : TableWord.Statement (.rdF20R2 i) :=
  ⟨rfl, TableWord.of_read _ _ _ rfl⟩

theorem TableWord.wrF20R2 (i : Inst) (v : Word) : TableWord.Statement (.wrF20R2 i v) :=
  ⟨rfl, TableWord.of_write _ _ _ _ rfl⟩

theorem TableWord.rdF21R1 (i : Inst) : TableWord.Statement (.rdF21R1 i) :=
  ⟨rfl, TableWord.of_read _ _ _ rfl⟩

theorem TableWord.wrF21R1 (i : Inst) (v : Word) : TableWord.Statement (.wrF21R1 i v) :=
  ⟨rfl, TableWord.of_write _ _ _ _ rfl⟩

theorem TableWord.rdF21R2 (i : Inst) : TableWord.Statement (.rdF21R2 i) :=
  ⟨rfl, TableWord.of_read _ _ _ rfl⟩

theorem TableWord.wrF21R2 (i : Inst) (v : Word) : TableWord.Statement (.wrF21R2 i v) :=
  ⟨rfl, TableWord.of_write _ _ _ _ rfl⟩

theorem TableWord.rdF22R1 (i : Inst) : TableWord.Statement (.rdF22R1 i) :=
  ⟨rfl, TableWord.of_read _ _ _ rfl⟩

theorem TableWord.wrF22R1 (i : Inst) (v : Word) : TableWord.Statement (.wrF22R1 i v) :=
  ⟨rfl, TableWord.of_write _ _ _ _ rfl⟩

theorem TableWord.rdF22R2 (i : Inst) : TableWord.Statement (.rdF22R2 i) :=
  ⟨rfl, TableWord.of_read _ _ _ rfl⟩

theorem TableWord.wrF22R2 (i : Inst) (v : Word) : TableWord.Statement (.wrF22R2 i v) :=
  ⟨rfl, TableWord.of_write _ _ _ _ rfl⟩

theorem TableWord.rdF23R1 (i : Inst) : TableWord.Statement (.rdF23R1 i) :=
  ⟨rfl, TableWord.of_read _ _ _ rfl⟩

theorem TableWord.wrF23R1 (i : Inst) (v : Word) : TableWord.Statement (.wrF23R1 i v) :=
  ⟨rfl, TableWord.of_write _ _ _ _ rfl⟩

theorem TableWord.rdF23R2 (i : Inst) : TableWord.Statement (.rdF23R2 i) :=
  ⟨rfl, TableWord.of_read _ _ _ rfl⟩

theorem TableWord.wrF23R2 (i : Inst) (v : Word) : TableWord.Statement (.wrF23R2 i v) :=
  ⟨rfl, TableWord.of_write _ _ _ _ rfl⟩

theorem TableWord.rdF24R1 (i : Inst) : TableWord.Statement (.rdF24R1 i) :=
  ⟨rfl, TableWord.of_read _ _ _ rfl⟩

theorem TableWord.wrF24R1 (i : Inst) (v : Word) : TableWord.Statement (.wrF24R1 i v) :=
  ⟨rfl, TableWord.of_write _ _ _ _ rfl⟩

theorem TableWord.rdF24R2 (i : Inst) : TableWord.Statement (.rdF24R2 i) :=
  ⟨rfl, TableWord.of_read _ _ _ rfl⟩

theorem TableWord.wrF24R2 (i : Inst) (v : Word) : TableWord.Statement (.wrF24R2 i v) :=
  ⟨rfl, TableWord.of_write _ _ _ _ rfl⟩

theorem TableWord.rdF25R1 (i : Inst) : TableWord.Statement (.rdF25R1 i) :=
  ⟨rfl, TableWord.of_read _ _ _ rfl⟩

theorem TableWord.wrF25R1 (i : Inst) (v : Word) : TableWord.Statement (.wrF25R1 i v) :=
  ⟨rfl, TableWord.of_write _ _ _ _ rfl⟩

theorem TableWord.rdF25R2 (i : Inst) : TableWord.Statement (.rdF25R2 i) :=
  ⟨rfl, TableWord.of_read _ _ _ rfl⟩

theorem TableWord.wrF25R2 (i : Inst) (v : Word) : TableWord.Statement (.wrF25R2 i v) :=
  ⟨rfl, TableWord.of_write _ _ _ _ rfl⟩

theorem TableWord.rdF26R1 (i : Inst) : TableWord.Statement (.rdF26R1 i) :=
  ⟨rfl, TableWord.of_read _ _ _ rfl⟩

theorem TableWord.wrF26R1 (i : Inst) (v : Word) : TableWord.Statement (.wrF26R1 i v) :=
  ⟨rfl, TableWord.of_write _ _ _ _ rfl⟩

theorem TableWord.rdF26R2 (i : Inst) : TableWord.Statement (.rdF26R2 i) :=
  ⟨rfl, TableWord.of_read _ _ _ rfl⟩

theorem TableWord.wrF26R2 (i : Inst) (v : Word) : TableWord.Statement (.wrF26R2 i v) :=
  ⟨rfl, TableWord.of_write _ _ _ _ rfl⟩

theorem TableWord.rdF27R1 (i : Inst) : TableWord.Statement (.rdF27R1 i) :=
  ⟨rfl, TableWord.of_read _ _ _ rfl⟩

theorem TableWord.wrF27R1 (i : Inst) (v : Word) : TableWord.Statement (.wrF27R1 i v) :=
  ⟨rfl, TableWord.of_write _ _ _ _ rfl⟩

theorem TableWord.rdF27R2 (i : Inst) : TableWord.Statement (.rdF27R2 i) :=
  ⟨rfl, TableWord.of_read _ _ _ rfl⟩

theorem TableWord.wrF27R2 (i : Inst) (v : Word) : TableWord.Statement (.wrF27R2 i v) :=
  ⟨rfl, TableWord.of_write _ _ _ _ rfl⟩

theorem TableWord.opReset (i : Inst) : TableWord.Statement (.opReset i) :=
  ⟨rfl, TableWord.of_op _ _ _ rfl⟩

theorem TableWord.opEnterInit (i : Inst) : TableWord.Statement (.opEnterInit i) :=
  ⟨rfl, TableWord.of_op _ _ _ rfl⟩

theorem TableWord.opLeaveInit (i : Inst) : TableWord.Statement (.opLeaveInit i) :=
  ⟨rfl, TableWord.of_op _ _ _ rfl⟩

theorem TableWord.opEnterSleep (i : Inst) : TableWord.Statement (.opEnterSleep i) :=
  ⟨rfl, TableWord.of_op _ _ _ rfl⟩

theorem TableWord.opLeaveSleep (i : Inst) : TableWord.Statement (.opLeaveSleep i) :=
  ⟨rfl, TableWord.of_op _ _ _ rfl⟩

theorem TableWord.opIsInit (i : Inst) : TableWord.Statement (.opIsInit i) :=
  ⟨rfl, TableWord.of_op _ _ _ rfl⟩

theorem TableWord.opIsSleep (i : Inst) : TableWord.Statement (.opIsSleep i) :=
  ⟨rfl, TableWord.of_op _ _ _ rfl⟩

theorem TableWord.opEnterInitBlocking (i : Inst) : TableWord.Statement (.opEnterInitBlocking i) :=
  ⟨rfl, TableWord.of_op _ _ _ rfl⟩

theorem TableWord.opLeaveInitBlocking (i : Inst) : TableWord.Statement (.opLeaveInitBlocking i) :=
  ⟨rfl, TableWord.of_op _ _ _ rfl⟩

theorem TableWord.opComputeTiming (rate : Nat) (sp : Nat) (pclk : Nat) :
    TableWord.Statement (.opComputeTiming rate sp pclk) :=
  ⟨rfl, TableWord.of_op _ _ _ rfl⟩

theorem TableWord.opApplyTiming (i : Inst) (t : Timing) : TableWord.Statement (.opApplyTiming i t) :=
  ⟨rfl, TableWord.of_op _ _ _ rfl⟩

theorem TableWord.opGetEffectiveBitrate (t : Timing) (pclk : Nat) :
    TableWord.Statement (.opGetEffectiveBitrate t pclk) :=
  ⟨rfl, TableWord.of_op _ _ _ rfl⟩

theorem TableWord.opConfigureFilter (i : Inst) (bank : Nat) (scale32 : Bool) (listMode : Bool) (reg1 : Word) (reg2 : Word) (fifoId : Nat) (enable : Bool) :
    TableWord.Statement (.opConfigureFilter i bank scale32 listMode reg1 reg2 fifoId enable) :=
  ⟨rfl, TableWord.of_op _ _ _ rfl⟩

theorem TableWord.opFilterIdMask16 (i : Inst) (bank : Nat) (id1 : Half) (mask1 : Half) (id2 : Half) (mask2 : Half) (fifoId : Nat) (enable : Bool) :
    TableWord.Statement (.opFilterIdMask16 i bank id1 mask1 id2 mask2 fifoId enable) :=
  ⟨rfl, TableWord.of_op _ _ _ rfl⟩

theorem TableWord.opFilterIdMask32 (i : Inst) (bank : Nat) (id : Word) (mask : Word) (fifoId : Nat) (enable : Bool) :
    TableWord.Statement (.opFilterIdMask32 i bank id mask fifoId enable) :=
  ⟨rfl, TableWord.of_op _ _ _ rfl⟩

theorem TableWord.opFilterIdList16 (i : Inst) (bank : Nat) (id1 : Half) (id2 : Half) (id3 : Half) (id4 : Half) (fifoId : Nat) (enable : Bool) :
    TableWord.Statement (.opFilterIdList16 i bank id1 id2 id3 id4 fifoId enable) :=
  ⟨rfl, TableWord.of_op _ _ _ rfl⟩

theorem TableWord.opFilterIdList32 (i : Inst) (bank : Nat) (id1 : Word) (id2 : Word) (fifoId : Nat) (enable : Bool) :
    TableWord.Statement (.opFilterIdList32 i bank id1 id2 fifoId enable) :=
  ⟨rfl, TableWord.of_op _ _ _ rfl⟩

theorem TableWord.opGetEmptyMailbox (i : Inst) : TableWord.Statement (.opGetEmptyMailbox i) :=
  ⟨rfl, TableWord.of_op _ _ _ rfl⟩

theorem TableWord.opTransmit (i : Inst) (id : Word) (ext : Bool) (rtr : Bool) (length : Nat) (data : List Byte) :
    TableWord.Statement (.opTransmit i id ext rtr length data) :=
  ⟨rfl, TableWord.of_op _ _ _ rfl⟩

theorem TableWord.opAvailableMailbox (i : Inst) : TableWord.Statement (.opAvailableMailbox i) :=
  ⟨rfl, TableWord.of_op _ _ _ rfl⟩

theorem TableWord.opReceive (i : Inst) (fifoId : Nat) (autoRelease : Bool) :
    TableWord.Statement (.opReceive i fifoId autoRelease) :=
  ⟨rfl, TableWord.of_op _ _ _ rfl⟩

theorem TableWord.opReleaseFifo (i : Inst) (fifoId : Nat) : TableWord.Statement (.opReleaseFifo i fifoId) :=
  ⟨rfl, TableWord.of_op _ _ _ rfl⟩

end Sys2Proof.Laws
end

