-- ==== Sys2Proof/Laws/Turns.lean ====
section
/-! SUPPORT. One turn of an operation is at most one host step. -/

namespace Sys2Proof.Machine
open HostTree

theorem sameBlock_refl (s : State) : sameBlock s s := ⟨rfl, rfl, rfl, rfl, rfl⟩
theorem sameBlock.trans {a b c : State} (h : sameBlock a b) (h' : sameBlock b c) : sameBlock a c := by
  obtain ⟨h1, h2, h3, h4, h5⟩ := h
  obtain ⟨k1, k2, k3, k4, k5⟩ := h'
  exact ⟨k1.trans h1, k2.trans h2, k3.trans h3, k4.trans h4, k5.trans h5⟩
theorem sameBlock.symm {a b : State} (h : sameBlock a b) : sameBlock b a := by
  obtain ⟨h1, h2, h3, h4, h5⟩ := h
  exact ⟨h1.symm, h2.symm, h3.symm, h4.symm, h5.symm⟩
theorem sameBlock.can {a b : State} (h : sameBlock a b) (i : Inst) : b.can i = a.can i := by
  obtain ⟨h1, h2, h3, h4, h5⟩ := h
  cases i; exacts [h1, h2]
theorem sameBlock.setCan {a b : State} (h : sameBlock a b) (i : Inst) (c : Controller) : sameBlock (a.setCan i c) (b.setCan i c) := by
  obtain ⟨h1, h2, h3, h4, h5⟩ := h
  cases i <;> simp [sameBlock, State.setCan, *]
theorem sameBlock.setFilter {a b : State} (h : sameBlock a b) (c : FilterBlock) : sameBlock (a.setFilter c) (b.setFilter c) := by
  obtain ⟨h1, h2, h3, h4, h5⟩ := h
  simp [sameBlock, State.setFilter, *]

theorem regWrite_block {s m0 m' : State} {i r v} (h : sameBlock s m0) (hw : regWrite i r v m0 = .ok ((), m')) :
    ∃ m, regWrite i r v s = .ok ((), m) ∧ sameBlock m m' := by
  obtain ⟨ha, hw⟩ := regWrite_cases hw
  have ha' : accessible s i r = true := by
    rw [← ha]; unfold accessible
    rw [h.can, h.2.2.2.2]
  suffices hh : ∃ m, writeRule (.write i r v.whole) s i v r = .ok m ∧ sameBlock m m' by
    obtain ⟨m, h1, h2⟩ := hh
    exact ⟨m, regWrite_ok ha' h1, h2⟩
  cases r <;> simp only [writeRule, h.can, h.2.2.2.2, h.2.2.1] at hw ⊢ <;> (try simp only [Except.map] at hw ⊢) <;>
    first
      | (split at hw <;> cases hw
         exact ⟨_, rfl, (by first | exact h.setCan _ _ | exact h.setFilter _)⟩)
      | (cases hw; exact ⟨_, rfl, (by first | exact h.setCan _ _ | exact h)⟩)

/-- What one host step leaves: see OperationsAreTheirHostSteps. -/
def OneStep (s t : State) : Prop :=
  sameBlock s t ∨ (∃ i r v m, regWrite i r v s = .ok ((), m) ∧ sameBlock m t) ∨
      ∃ i, hasInst s.params i = true ∧
        (sameBlock (s.setCan i { s.can i with resetAsserted := true }) t ∨ sameBlock (clearReset i s) t)

theorem sameBlock.takeDraws {a b : State} (h : sameBlock a b) (n m : Nat) : sameBlock (a.takeDraws n) (b.takeDraws m) := h

theorem clearReset_block {s s0 : State} (h0 : sameBlock s s0) (hd : s0.draws = s.draws) (i : Inst) :
    sameBlock (clearReset i s) (clearReset i s0) := by
  unfold Machine.clearReset
  simp only [hd, h0.2.2.2.2, State.takeDraws_draws, State.setCan_draws]
  generalize Controller.atReset s.draws = c
  generalize FilterBlock.atReset (s.draws + controllerResetDraws) = f
  by_cases hi : filterOwner s.params = i
  · simp only [hi, if_true]
    exact ((((h0.setCan i c).takeDraws _ _)).setFilter f).takeDraws _ _
  · simp only [hi, if_false]
    exact (h0.setCan i c).takeDraws _ _

theorem OneStep.left {s s0 t : State} (h : OneStep s0 t) (h0 : sameBlock s s0) (hd : s0.draws = s.draws) : OneStep s t := by
  rcases h with h | ⟨i, r, v, m, hw, hm⟩ | ⟨i, hi, h | h⟩
  · exact .inl (h0.trans h)
  · obtain ⟨m2, h1, h2⟩ := regWrite_block h0 hw
    exact .inr (.inl ⟨i, r, v, m2, h1, h2.trans hm⟩)
  · refine .inr (.inr ⟨i, by rw [← h0.2.2.2.2]; exact hi, .inl ?_⟩)
    rw [h0.can] at h
    exact (h0.setCan _ _).trans h
  · refine .inr (.inr ⟨i, by rw [← h0.2.2.2.2]; exact hi, .inr ?_⟩)
    refine sameBlock.trans ?_ h
    exact clearReset_block h0 hd i

theorem OneStep.right {s t t0 : State} (h : OneStep s t0) (h0 : sameBlock t0 t) : OneStep s t := by
  rcases h with h | ⟨i, r, v, m, hw, hm⟩ | ⟨i, hi, h | h⟩
  · exact .inl (h.trans h0)
  · exact .inr (.inl ⟨i, r, v, m, hw, hm.trans h0⟩)
  · exact .inr (.inr ⟨i, hi, .inl (h.trans h0)⟩)
  · exact .inr (.inr ⟨i, hi, .inr (h.trans h0)⟩)

/-- The state a turn ends in. -/
def endState {α : Type} (e : Except Halt (α × Turn)) : Option State :=
  match e with
  | .ok (_, t) => some t.state
  | .error (.waits t) => some t.state
  | .error (.stop _) => none

theorem perform_one {x : HostStep} {s s' : State} {w : BusWord} (h : x.perform atOnce s = .ok (w, s')) : OneStep s s' := by
  cases x with
  | read i r => obtain ⟨_, _, rfl⟩ := regRead_cases h; exact .inl (sameBlock_refl _)
  | write i r v =>
    simp only [HostStep.perform, answersZero, progBind, atOnce_write] at h
    split at h <;> cases h
    rename_i u _ hw
    exact .inr (.inl ⟨i, r, v, _, hw, sameBlock_refl _⟩)
  | assertReset i =>
    simp only [HostStep.perform, answersZero, progBind, atOnce_assertReset, resetAssert] at h
    split at h <;> cases h
    rename_i hw
    split at hw <;> cases hw
    rename_i hi
    exact .inr (.inr ⟨i, hi, .inl (sameBlock_refl _)⟩)
  | clearReset i =>
    simp only [HostStep.perform, answersZero, progBind, atOnce_clearReset, Machine.resetClear] at h
    split at h <;> cases h
    rename_i hw
    split at hw <;> cases hw
    rename_i hi
    exact .inr (.inr ⟨i, hi, .inr (sameBlock_refl _)⟩)

/-- After its host step a turn changes nothing. -/
theorem run_made {α : Type} (t : HostTree α) : ∀ L tk s u, endState (t.run byTurns ⟨L, tk, true, s⟩) = some u → u = s := by
  induction t with
  | ret a => intro L tk s u h; exact (Option.some.inj h).symm
  | fail f => intro L tk s u h; cases h
  | gap k ih => intro L tk s u h; exact ih L tk s u h
  | params k ih => intro L tk s u h; exact ih s.params L tk s u h
  | draw k ih =>
    intro L tk s u h
    cases L with
    | nil => exact (Option.some.inj h).symm
    | cons w L => exact ih w.val L (tk ++ [w]) s u h
  | act x k ih =>
    intro L tk s u h
    have ht := perform_turns x ⟨L, tk, true, s⟩
    cases L with
    | nil =>
      rw [turnPoint_made] at ht
      simp only [HostTree.run] at h
      rw [turnBind_stop ht] at h
      exact (Option.some.inj h).symm
    | cons w L =>
      rw [turnPoint_replay] at ht
      simp only [HostTree.run] at h
      rw [turnBind_ok ht] at h
      exact ih _ _ _ _ _ h

/-- A turn that goes on with draws, a gap and a register access, with no answer left, is that access. -/
theorem HostTree.Leads.one {α : Type} {t : HostTree α} (hl : Leads HostStep.isAccess t) :
    ∀ tk s u, endState (t.run byTurns ⟨[], tk, false, s⟩) = some u →
      sameBlock s u ∨ ∃ i r v m, regWrite i r v s = .ok ((), m) ∧ sameBlock m u := by
  induction hl with
  | draw k _ ih =>
    intro tk s u h
    have e : (HostTree.draw k).run byTurns ⟨[], tk, false, s⟩ = (k (Config.draw s.draws)).run byTurns
        ⟨[], tk ++ [.ofWord (Config.draw s.draws)], false, s.takeDraws 1⟩ := rfl
    rw [e] at h
    obtain h1 | ⟨i, r, v, m, hw, hm⟩ :=
      ih (Config.draw s.draws) (tk ++ [.ofWord (Config.draw s.draws)]) (s.takeDraws 1) u h
    · exact .inl h1
    · obtain ⟨m2, h2, h3⟩ := regWrite_block (s := s) (m0 := s.takeDraws 1) (sameBlock_refl s) hw
      exact .inr ⟨i, r, v, m2, h2, h3.trans hm⟩
  | gap x k hx =>
    intro tk s u h
    have ht := perform_turns x ⟨[], tk, false, s⟩
    simp only [turnPoint] at ht
    have e1 : (HostTree.gap (HostTree.act x k)).run byTurns ⟨[], tk, false, s⟩
        = (HostTree.act x k).run byTurns ⟨[], tk, false, s⟩ := rfl
    rw [e1] at h
    simp only [HostTree.run] at h
    cases hp : x.perform atOnce s with
    | error e => rw [hp] at ht; rw [turnBind_stop ht] at h; cases h
    | ok a =>
      rw [hp] at ht; rw [turnBind_ok ht] at h
      cases run_made _ _ _ _ _ h
      cases x with
      | read i r => obtain ⟨_, _, e⟩ := regRead_cases hp; rw [e]; exact .inl (sameBlock_refl _)
      | write i r v =>
        simp only [HostStep.perform, answersZero, progBind, atOnce_write] at hp
        split at hp <;> cases hp
        rename_i hw
        exact .inr ⟨i, r, v, _, hw, sameBlock_refl _⟩
      | assertReset i => cases hx
      | clearReset i => cases hx

theorem act_one {α : Type} (x : HostStep) (k : BusWord → HostTree α)
    (ih : ∀ w L tk s u, endState ((k w).run byTurns ⟨L, tk, false, s⟩) = some u → OneStep s u) :
    ∀ L tk s u, endState ((HostTree.act x k).run byTurns ⟨L, tk, false, s⟩) = some u → OneStep s u := by
  intro L tk s u h
  have ht := perform_turns x ⟨L, tk, false, s⟩
  simp only [HostTree.run] at h
  cases L with
  | nil =>
    simp only [turnPoint] at ht
    cases hp : x.perform atOnce s with
    | error e => rw [hp] at ht; rw [turnBind_stop ht] at h; cases h
    | ok a =>
      rw [hp] at ht; rw [turnBind_ok ht] at h
      cases run_made _ _ _ _ _ h
      exact perform_one hp
  | cons w L =>
    rw [turnPoint_replay] at ht
    rw [turnBind_ok ht] at h
    exact ih _ _ _ _ _ h

theorem HostTree.After.one {α : Type} {t : HostTree α} (ha : After t) :
    ∀ L tk s u, endState (t.run byTurns ⟨L, tk, false, s⟩) = some u → OneStep s u := by
  induction ha with
  | ret a => intro L tk s u h; cases h; exact .inl (sameBlock_refl _)
  | fail f => intro L tk s u h; cases h
  | params k _ ih => intro L tk s u h; exact ih s.params L tk s u h
  | gap x k _ ih => intro L tk s u h; exact act_one x k ih L tk s u h
  | draw k hl _ ih =>
    intro L tk s u h
    cases L with
    | nil => exact ((Leads.draw k hl).one tk s u h).imp_right .inl
    | cons w L => exact ih w.val L (tk ++ [w]) s u h

/-- One turn of an operation is at most one host step, whatever answers it starts from. -/
theorem HostTree.Starts.one {α : Type} {t : HostTree α} (hs : Starts t) :
    ∀ L tk s u, endState (t.run byTurns ⟨L, tk, false, s⟩) = some u → OneStep s u := by
  induction hs with
  | fail f => intro L tk s u h; cases h
  | params k _ ih => intro L tk s u h; exact ih s.params L tk s u h
  | act x k ha => exact act_one x k fun w => (ha w).one

/-- A turn of an operation is at most one host step. -/
theorem turn_one
    (hpoll : ∀ (i : Inst) (want : Bool) (n : Nat) (s : State), pollInak i want n s = pollLoop i want n s)
    {op : Instr} {q : TurnProg Result} {l : List BusWord} {s t : State} (hq : callProg op = some q)
    (h : turn op l q s = .next t) : OneStep s t := by
  obtain ⟨tree, ht, rfl, _⟩ := callProg_tree hpoll hq
  have hone := ht.one l [] s
  unfold turn at h
  cases he : tree.run byTurns ⟨l, [], false, s⟩ with
  | ok a => rw [he] at h hone; cases h; exact (hone _ rfl).right (sameBlock_refl _)
  | error e =>
    rw [he] at h hone
    cases e with
    | waits u => cases h; exact (hone _ rfl).right (sameBlock_refl _)
    | stop e => cases e <;> cases h

/-- What one host step keeps: a property of the block that the write rules and the two reset calls keep. -/
theorem OneStep.keeps {I : State → Prop} {s t : State} (h : OneStep s t)
    (hblock : ∀ s t, sameBlock s t → I s → I t)
    (hwrite : ∀ a s i v r s', I s → writeRule a s i v r = .ok s' → I s')
    (hassert : ∀ s i, I s → I (s.setCan i { s.can i with resetAsserted := true }))
    (hclear : ∀ s i, I s → I (clearReset i s)) (hs : I s) : I t := by
  rcases h with h | ⟨i, r, v, m, hw, hm⟩ | ⟨i, _, h | h⟩
  · exact hblock _ _ h hs
  · exact hblock _ _ hm (hwrite _ _ _ _ _ _ hs (regWrite_cases hw).2)
  · exact hblock _ _ h (hassert _ _ hs)
  · exact hblock _ _ h (hclear _ _ hs)

end Sys2Proof.Machine
end

