-- ==== Sys2Proof/Tests/Slice0.lean ====
section
/-! SUPPORT. The model's own tests: the well-formedness check refuses an ill-formed term for each of its checks; every
row of the opcode table decodes to its instruction; the vectors of spec/95_test_vectors.md, each test named after its
vector (A, M, T, F, X, V, G, S), their expected values taken from that file; and, for each statement with hypotheses,
states and operands that meet them. -/

namespace Sys2Proof.Tests

-- The tests are checked one after another: many at a time need more memory than a build is given.
set_option Elab.async false

open Sys2Proof.Machine

/-! ## The well-formedness check refuses -/

theorem test_wf_computeTiming_rate : (Instr.opComputeTiming (2 ^ 32) 204 36000000).wellFormed = false := by decide

theorem test_wf_computeTiming_sp : (Instr.opComputeTiming 500000 256 36000000).wellFormed = false := by decide

theorem test_wf_computeTiming_pclk : (Instr.opComputeTiming 500000 204 (2 ^ 32)).wellFormed = false := by decide

theorem test_wf_applyTiming : (Instr.opApplyTiming .can1 ⟨14, 3, 65536, 3⟩).wellFormed = false := by decide

theorem test_wf_getEffectiveBitrate : (Instr.opGetEffectiveBitrate ⟨14, 3, 4, 3⟩ (2 ^ 32)).wellFormed = false := by
  decide

theorem test_wf_getEffectiveBitrate_timing :
    (Instr.opGetEffectiveBitrate ⟨65536, 3, 4, 3⟩ 36000000).wellFormed = false := by decide

theorem test_wf_configureFilter : (Instr.opConfigureFilter .can1 256 true false 0 0 0 true).wellFormed = false := by
  decide

theorem test_wf_filterIdMask16 : (Instr.opFilterIdMask16 .can1 0 0 0 0 0 256 true).wellFormed = false := by decide

theorem test_wf_filterIdMask32 : (Instr.opFilterIdMask32 .can1 256 0 0 0 true).wellFormed = false := by decide

theorem test_wf_filterIdList16 : (Instr.opFilterIdList16 .can1 256 0 0 0 0 0 true).wellFormed = false := by decide

theorem test_wf_filterIdList32 : (Instr.opFilterIdList32 .can1 0 0 0 256 true).wellFormed = false := by decide

theorem test_wf_transmit_length :
    (Instr.opTransmit .can1 0x123 false false 256 (List.replicate 8 0)).wellFormed = false := by decide

theorem test_wf_transmit_data : (Instr.opTransmit .can1 0x123 false false 3 [1, 2]).wellFormed = false := by decide

theorem test_wf_transmit_count :
    (Instr.opTransmit .can1 0x123 false false 8 (List.replicate 256 0)).wellFormed = false := by decide +kernel

theorem test_wf_receive : (Instr.opReceive .can1 256 true).wellFormed = false := by decide

theorem test_wf_releaseFifo : (Instr.opReleaseFifo .can1 256).wellFormed = false := by decide

/-! ## Every row of the opcode table -/

/-- Rows 1 to 20 of spec/opcode_table.json. -/
def tableRows0 : List (Nat × Nat × Instr) :=
  [(16, 0b00000000000, .rdMCR .can1),
   (16, 0b10000000000, .wrMCR .can1 0),
   (16, 0b00000000100, .rdMSR .can1),
   (16, 0b10000000100, .wrMSR .can1 0),
   (16, 0b00000001000, .rdTSR .can1),
   (16, 0b10000001000, .wrTSR .can1 0),
   (16, 0b00000001100, .rdRF0R .can1),
   (16, 0b10000001100, .wrRF0R .can1 0),
   (16, 0b00000010000, .rdRF1R .can1),
   (16, 0b10000010000, .wrRF1R .can1 0),
   (16, 0b00000010100, .rdIER .can1),
   (16, 0b10000010100, .wrIER .can1 0),
   (16, 0b00000011000, .rdESR .can1),
   (16, 0b10000011000, .wrESR .can1 0),
   (16, 0b00000011100, .rdBTR .can1),
   (16, 0b10000011100, .wrBTR .can1 0),
   (16, 0b00110000000, .rdTI0R .can1),
   (16, 0b10110000000, .wrTI0R .can1 0),
   (16, 0b00110000100, .rdTDT0R .can1),
   (16, 0b10110000100, .wrTDT0R .can1 0)]

theorem test_decode_rows0 : tableRows0.all (fun r => decodeTableWord r.1 r.2.1 = some r.2.2) = true := by
  decide +kernel

/-- Rows 21 to 40 of spec/opcode_table.json. -/
def tableRows1 : List (Nat × Nat × Instr) :=
  [(16, 0b00110001000, .rdTDL0R .can1),
   (16, 0b10110001000, .wrTDL0R .can1 0),
   (16, 0b00110001100, .rdTDH0R .can1),
   (16, 0b10110001100, .wrTDH0R .can1 0),
   (16, 0b00110010000, .rdTI1R .can1),
   (16, 0b10110010000, .wrTI1R .can1 0),
   (16, 0b00110010100, .rdTDT1R .can1),
   (16, 0b10110010100, .wrTDT1R .can1 0),
   (16, 0b00110011000, .rdTDL1R .can1),
   (16, 0b10110011000, .wrTDL1R .can1 0),
   (16, 0b00110011100, .rdTDH1R .can1),
   (16, 0b10110011100, .wrTDH1R .can1 0),
   (16, 0b00110100000, .rdTI2R .can1),
   (16, 0b10110100000, .wrTI2R .can1 0),
   (16, 0b00110100100, .rdTDT2R .can1),
   (16, 0b10110100100, .wrTDT2R .can1 0),
   (16, 0b00110101000, .rdTDL2R .can1),
   (16, 0b10110101000, .wrTDL2R .can1 0),
   (16, 0b00110101100, .rdTDH2R .can1),
   (16, 0b10110101100, .wrTDH2R .can1 0)]

theorem test_decode_rows1 : tableRows1.all (fun r => decodeTableWord r.1 r.2.1 = some r.2.2) = true := by
  decide +kernel

/-- Rows 41 to 60 of spec/opcode_table.json. -/
def tableRows2 : List (Nat × Nat × Instr) :=
  [(16, 0b00110110000, .rdRI0R .can1),
   (16, 0b10110110000, .wrRI0R .can1 0),
   (16, 0b00110110100, .rdRDT0R .can1),
   (16, 0b10110110100, .wrRDT0R .can1 0),
   (16, 0b00110111000, .rdRDL0R .can1),
   (16, 0b10110111000, .wrRDL0R .can1 0),
   (16, 0b00110111100, .rdRDH0R .can1),
   (16, 0b10110111100, .wrRDH0R .can1 0),
   (16, 0b00111000000, .rdRI1R .can1),
   (16, 0b10111000000, .wrRI1R .can1 0),
   (16, 0b00111000100, .rdRDT1R .can1),
   (16, 0b10111000100, .wrRDT1R .can1 0),
   (16, 0b00111001000, .rdRDL1R .can1),
   (16, 0b10111001000, .wrRDL1R .can1 0),
   (16, 0b00111001100, .rdRDH1R .can1),
   (16, 0b10111001100, .wrRDH1R .can1 0),
   (16, 0b01000000000, .rdFMR .can1),
   (16, 0b11000000000, .wrFMR .can1 0),
   (16, 0b01000000100, .rdFM1R .can1),
   (16, 0b11000000100, .wrFM1R .can1 0)]

theorem test_decode_rows2 : tableRows2.all (fun r => decodeTableWord r.1 r.2.1 = some r.2.2) = true := by
  decide +kernel

/-- Rows 61 to 80 of spec/opcode_table.json. -/
def tableRows3 : List (Nat × Nat × Instr) :=
  [(16, 0b01000001100, .rdFS1R .can1),
   (16, 0b11000001100, .wrFS1R .can1 0),
   (16, 0b01000010100, .rdFFA1R .can1),
   (16, 0b11000010100, .wrFFA1R .can1 0),
   (16, 0b01000011100, .rdFA1R .can1),
   (16, 0b11000011100, .wrFA1R .can1 0),
   (16, 0b01001000000, .rdF0R1 .can1),
   (16, 0b11001000000, .wrF0R1 .can1 0),
   (16, 0b01001000100, .rdF0R2 .can1),
   (16, 0b11001000100, .wrF0R2 .can1 0),
   (16, 0b01001001000, .rdF1R1 .can1),
   (16, 0b11001001000, .wrF1R1 .can1 0),
   (16, 0b01001001100, .rdF1R2 .can1),
   (16, 0b11001001100, .wrF1R2 .can1 0),
   (16, 0b01001010000, .rdF2R1 .can1),
   (16, 0b11001010000, .wrF2R1 .can1 0),
   (16, 0b01001010100, .rdF2R2 .can1),
   (16, 0b11001010100, .wrF2R2 .can1 0),
   (16, 0b01001011000, .rdF3R1 .can1),
   (16, 0b11001011000, .wrF3R1 .can1 0)]

theorem test_decode_rows3 : tableRows3.all (fun r => decodeTableWord r.1 r.2.1 = some r.2.2) = true := by
  decide +kernel

/-- Rows 81 to 100 of spec/opcode_table.json. -/
def tableRows4 : List (Nat × Nat × Instr) :=
  [(16, 0b01001011100, .rdF3R2 .can1),
   (16, 0b11001011100, .wrF3R2 .can1 0),
   (16, 0b01001100000, .rdF4R1 .can1),
   (16, 0b11001100000, .wrF4R1 .can1 0),
   (16, 0b01001100100, .rdF4R2 .can1),
   (16, 0b11001100100, .wrF4R2 .can1 0),
   (16, 0b01001101000, .rdF5R1 .can1),
   (16, 0b11001101000, .wrF5R1 .can1 0),
   (16, 0b01001101100, .rdF5R2 .can1),
   (16, 0b11001101100, .wrF5R2 .can1 0),
   (16, 0b01001110000, .rdF6R1 .can1),
   (16, 0b11001110000, .wrF6R1 .can1 0),
   (16, 0b01001110100, .rdF6R2 .can1),
   (16, 0b11001110100, .wrF6R2 .can1 0),
   (16, 0b01001111000, .rdF7R1 .can1),
   (16, 0b11001111000, .wrF7R1 .can1 0),
   (16, 0b01001111100, .rdF7R2 .can1),
   (16, 0b11001111100, .wrF7R2 .can1 0),
   (16, 0b01010000000, .rdF8R1 .can1),
   (16, 0b11010000000, .wrF8R1 .can1 0)]

theorem test_decode_rows4 : tableRows4.all (fun r => decodeTableWord r.1 r.2.1 = some r.2.2) = true := by
  decide +kernel

/-- Rows 101 to 120 of spec/opcode_table.json. -/
def tableRows5 : List (Nat × Nat × Instr) :=
  [(16, 0b01010000100, .rdF8R2 .can1),
   (16, 0b11010000100, .wrF8R2 .can1 0),
   (16, 0b01010001000, .rdF9R1 .can1),
   (16, 0b11010001000, .wrF9R1 .can1 0),
   (16, 0b01010001100, .rdF9R2 .can1),
   (16, 0b11010001100, .wrF9R2 .can1 0),
   (16, 0b01010010000, .rdF10R1 .can1),
   (16, 0b11010010000, .wrF10R1 .can1 0),
   (16, 0b01010010100, .rdF10R2 .can1),
   (16, 0b11010010100, .wrF10R2 .can1 0),
   (16, 0b01010011000, .rdF11R1 .can1),
   (16, 0b11010011000, .wrF11R1 .can1 0),
   (16, 0b01010011100, .rdF11R2 .can1),
   (16, 0b11010011100, .wrF11R2 .can1 0),
   (16, 0b01010100000, .rdF12R1 .can1),
   (16, 0b11010100000, .wrF12R1 .can1 0),
   (16, 0b01010100100, .rdF12R2 .can1),
   (16, 0b11010100100, .wrF12R2 .can1 0),
   (16, 0b01010101000, .rdF13R1 .can1),
   (16, 0b11010101000, .wrF13R1 .can1 0)]

theorem test_decode_rows5 : tableRows5.all (fun r => decodeTableWord r.1 r.2.1 = some r.2.2) = true := by
  decide +kernel

/-- Rows 121 to 140 of spec/opcode_table.json. -/
def tableRows6 : List (Nat × Nat × Instr) :=
  [(16, 0b01010101100, .rdF13R2 .can1),
   (16, 0b11010101100, .wrF13R2 .can1 0),
   (16, 0b01010110000, .rdF14R1 .can1),
   (16, 0b11010110000, .wrF14R1 .can1 0),
   (16, 0b01010110100, .rdF14R2 .can1),
   (16, 0b11010110100, .wrF14R2 .can1 0),
   (16, 0b01010111000, .rdF15R1 .can1),
   (16, 0b11010111000, .wrF15R1 .can1 0),
   (16, 0b01010111100, .rdF15R2 .can1),
   (16, 0b11010111100, .wrF15R2 .can1 0),
   (16, 0b01011000000, .rdF16R1 .can1),
   (16, 0b11011000000, .wrF16R1 .can1 0),
   (16, 0b01011000100, .rdF16R2 .can1),
   (16, 0b11011000100, .wrF16R2 .can1 0),
   (16, 0b01011001000, .rdF17R1 .can1),
   (16, 0b11011001000, .wrF17R1 .can1 0),
   (16, 0b01011001100, .rdF17R2 .can1),
   (16, 0b11011001100, .wrF17R2 .can1 0),
   (16, 0b01011010000, .rdF18R1 .can1),
   (16, 0b11011010000, .wrF18R1 .can1 0)]

theorem test_decode_rows6 : tableRows6.all (fun r => decodeTableWord r.1 r.2.1 = some r.2.2) = true := by
  decide +kernel

/-- Rows 141 to 160 of spec/opcode_table.json. -/
def tableRows7 : List (Nat × Nat × Instr) :=
  [(16, 0b01011010100, .rdF18R2 .can1),
   (16, 0b11011010100, .wrF18R2 .can1 0),
   (16, 0b01011011000, .rdF19R1 .can1),
   (16, 0b11011011000, .wrF19R1 .can1 0),
   (16, 0b01011011100, .rdF19R2 .can1),
   (16, 0b11011011100, .wrF19R2 .can1 0),
   (16, 0b01011100000, .rdF20R1 .can1),
   (16, 0b11011100000, .wrF20R1 .can1 0),
   (16, 0b01011100100, .rdF20R2 .can1),
   (16, 0b11011100100, .wrF20R2 .can1 0),
   (16, 0b01011101000, .rdF21R1 .can1),
   (16, 0b11011101000, .wrF21R1 .can1 0),
   (16, 0b01011101100, .rdF21R2 .can1),
   (16, 0b11011101100, .wrF21R2 .can1 0),
   (16, 0b01011110000, .rdF22R1 .can1),
   (16, 0b11011110000, .wrF22R1 .can1 0),
   (16, 0b01011110100, .rdF22R2 .can1),
   (16, 0b11011110100, .wrF22R2 .can1 0),
   (16, 0b01011111000, .rdF23R1 .can1),
   (16, 0b11011111000, .wrF23R1 .can1 0)]

theorem test_decode_rows7 : tableRows7.all (fun r => decodeTableWord r.1 r.2.1 = some r.2.2) = true := by
  decide +kernel

/-- Rows 161 to 180 of spec/opcode_table.json. -/
def tableRows8 : List (Nat × Nat × Instr) :=
  [(16, 0b01011111100, .rdF23R2 .can1),
   (16, 0b11011111100, .wrF23R2 .can1 0),
   (16, 0b01100000000, .rdF24R1 .can1),
   (16, 0b11100000000, .wrF24R1 .can1 0),
   (16, 0b01100000100, .rdF24R2 .can1),
   (16, 0b11100000100, .wrF24R2 .can1 0),
   (16, 0b01100001000, .rdF25R1 .can1),
   (16, 0b11100001000, .wrF25R1 .can1 0),
   (16, 0b01100001100, .rdF25R2 .can1),
   (16, 0b11100001100, .wrF25R2 .can1 0),
   (16, 0b01100010000, .rdF26R1 .can1),
   (16, 0b11100010000, .wrF26R1 .can1 0),
   (16, 0b01100010100, .rdF26R2 .can1),
   (16, 0b11100010100, .wrF26R2 .can1 0),
   (16, 0b01100011000, .rdF27R1 .can1),
   (16, 0b11100011000, .wrF27R1 .can1 0),
   (16, 0b01100011100, .rdF27R2 .can1),
   (16, 0b11100011100, .wrF27R2 .can1 0),
   (8, 0b00000000, .opReset .can1),
   (8, 0b00000001, .opEnterInit .can1)]

theorem test_decode_rows8 : tableRows8.all (fun r => decodeTableWord r.1 r.2.1 = some r.2.2) = true := by
  decide +kernel

/-- Rows 181 to 200 of spec/opcode_table.json. -/
def tableRows9 : List (Nat × Nat × Instr) :=
  [(8, 0b00000010, .opLeaveInit .can1),
   (8, 0b00000011, .opEnterSleep .can1),
   (8, 0b00000100, .opLeaveSleep .can1),
   (8, 0b00000101, .opIsInit .can1),
   (8, 0b00000110, .opIsSleep .can1),
   (8, 0b00000111, .opEnterInitBlocking .can1),
   (8, 0b00001000, .opLeaveInitBlocking .can1),
   (8, 0b00100000, .opComputeTiming 0 0 0),
   (8, 0b00100001, .opApplyTiming .can1 ⟨0, 0, 0, 0⟩),
   (8, 0b00100010, .opGetEffectiveBitrate ⟨0, 0, 0, 0⟩ 0),
   (8, 0b01000000, .opConfigureFilter .can1 0 false false 0 0 0 false),
   (8, 0b01000001, .opFilterIdMask16 .can1 0 0 0 0 0 0 false),
   (8, 0b01000010, .opFilterIdMask32 .can1 0 0 0 0 false),
   (8, 0b01000011, .opFilterIdList16 .can1 0 0 0 0 0 0 false),
   (8, 0b01000100, .opFilterIdList32 .can1 0 0 0 0 false),
   (8, 0b01100000, .opGetEmptyMailbox .can1),
   (8, 0b01100001, .opTransmit .can1 0 false false 0 []),
   (8, 0b01100010, .opAvailableMailbox .can1),
   (8, 0b10000000, .opReceive .can1 0 false),
   (8, 0b10000001, .opReleaseFifo .can1 0)]

theorem test_decode_rows9 : tableRows9.all (fun r => decodeTableWord r.1 r.2.1 = some r.2.2) = true := by
  decide +kernel

/-! ## Small states -/

/-- The parameters of the conventions of 95_test_vectors.md. -/
def conv : Params where
  ninst := .one
  nbanks := .banks14
  filterOwner := .can1
  packShift := 3
  bit0Compared := false
  fmiRestart := false
  pollBound := 65535
  canBase1 := 0x40006400
  canBase2 := 0x40006800

/-- A part with two instances and 28 banks. -/
def dual : Params := { conv with ninst := .two, nbanks := .banks28 }

/-- An empty mailbox with content 0. -/
def noFrame : Mailbox where
  pending := false
  abrq := false
  rqcp := false
  txok := false
  alst := false
  terr := false
  tir := 0
  dlc := 0
  tgt := false
  time := 0
  dlo := 0
  dhi := 0

/-- An instance in a mode, with no request and empty mailboxes. -/
def inMode (m : Mode) : Controller :=
  { Controller.atReset 0 with mode := m, mcr := { Mcr.atReset with sleep := false }, mb0 := noFrame, mb1 := noFrame,
                              mb2 := noFrame }

/-- A filter block with its latch held or not and every word 0. -/
def bank0 (latch : Bool) : FilterBlock :=
  { FilterBlock.atReset 0 with finit := latch, fr := Vector.replicate 28 ⟨0, 0⟩ }

/-- A machine around instance 0. -/
def machine (p : Params) (c : Controller) (fl : FilterBlock) : State where
  params := p
  can1 := c
  can2 := inMode .normal
  filter := fl
  busOut := []
  program := []
  call := none
  gaps := []
  draws := 0
  result := .none

/-- A machine with the conventions' parameters, the latch held. -/
def with1 (c : Controller) : State := machine conv c (bank0 true)

/-- The next state of an outcome. -/
def after : Host.Outcome State Fault Refusal → Option State
  | .next s => some s
  | .fault _ => none
  | .refused _ => none

/-- A field of the next state. -/
def see {α : Type} (o : Host.Outcome State Fault Refusal) (f : State → α) : Option α := (after o).map f

/-- The fault of an outcome. -/
def faultOf : Host.Outcome State Fault Refusal → Option Fault
  | .next _ => none
  | .fault f => some f
  | .refused _ => none

/-- The refusal of an outcome. -/
def refusalOf : Host.Outcome State Fault Refusal → Option Refusal
  | .next _ => none
  | .fault _ => none
  | .refused r => some r

/-- The defined bits of a register read. -/
def defined : Host.Outcome State Fault Refusal → Option Word
  | .next s =>
    match s.result with
    | .word w => some (w.val &&& ~~~w.free)
    | _ => none
  | .fault _ => none
  | .refused _ => none

/-- The access a bus request makes. -/
def access (word : BitVec 11) (width : Width) (data : Option Word) : Access :=
  { inst := .can1, word, width, data }

/-! ## Access decode (A1 to A12) -/

theorem test_A1_reads_btr : defined (runDecoded (access 0b00000011100 .w32 none).decode State.reset) = some 0x01230000 := by
  decide +kernel

theorem test_A2_A11_bad_access :
    faultOf (runDecoded (access 0b00000000010 .w32 none).decode State.reset)
      = some (.badAccessWidth (.access (access 0b00000000010 .w32 none))) ∧
    faultOf (runDecoded (access 0b00000000000 .w8 none).decode State.reset)
      = some (.badAccessWidth (.access (access 0b00000000000 .w8 none))) := by decide +kernel

theorem test_A3_A4_A8_reserved :
    faultOf (runDecoded (access 0b00000100000 .w32 none).decode State.reset)
      = some (.reservedOffset (.access (access 0b00000100000 .w32 none))) ∧
    faultOf (runDecoded (access 0b11000001000 .w32 (some 0)).decode State.reset)
      = some (.reservedOffset (.access (access 0b11000001000 .w32 (some 0)))) ∧
    faultOf (runDecoded (access 0b00111010000 .w32 none).decode State.reset)
      = some (.reservedOffset (.access (access 0b00111010000 .w32 none))) := by decide +kernel

theorem test_A5_A6_bank14 :
    faultOf (runDecoded (access 0b01010110000 .w32 none).decode (with1 (inMode .normal)))
      = some (.reservedOffset (.access (access 0b01010110000 .w32 none))) ∧
    defined (runDecoded (access 0b01010110000 .w32 none).decode (machine dual (inMode .normal) (bank0 true)))
      = some 0 := by decide +kernel

theorem test_A7_not_the_owner :
    faultOf (exec (.rdFMR .can2) State.reset) = some (.reservedOffset (.access (Access.read .can2 .fmr))) := by
  decide +kernel

theorem test_A9_A10_in_reset :
    faultOf (exec (.rdMCR .can1) (with1 { inMode .normal with resetAsserted := true }))
      = some (.accessDuringReset (.access (Access.read .can1 .mcr))) ∧
    faultOf (runDecoded (access 0b00000000010 .w32 none).decode (with1 { inMode .normal with resetAsserted := true }))
      = some (.accessDuringReset (.access (access 0b00000000010 .w32 none))) := by decide +kernel

theorem test_A12_unknown_selector :
    refusalOf (runRequest (.code { fmt := .operation, bytes := [0x09, 0] }) State.reset)
      = some (.unknownSelector 0x09) := by decide +kernel

/-! ## Mode controller (M1 to M25) -/

/-- The mode after a step of `ModeFsm`. -/
def fsmFrom (m : Mode) (inrq sleep : Bool) : Mode :=
  (agentStep (.modeFsm .can1) (with1 { inMode m with mcr := { Mcr.atReset with inrq, sleep } })).can1.mode

theorem test_M1_M12_modeFsm :
    fsmFrom .sleep false true = .sleep ∧ fsmFrom .sleep false false = .normal ∧ fsmFrom .sleep true false = .init ∧
    fsmFrom .sleep true true = .init ∧ fsmFrom .init true false = .init ∧ fsmFrom .init true true = .init ∧
    fsmFrom .init false false = .normal ∧ fsmFrom .init false true = .sleep ∧ fsmFrom .normal false false = .normal ∧
    fsmFrom .normal true false = .init ∧ fsmFrom .normal false true = .sleep ∧ fsmFrom .normal true true = .init := by
  decide +kernel

theorem test_M13_no_step_in_reset :
    (agentStep (.modeFsm .can1) (with1 { inMode .sleep with resetAsserted := true })).can1.mode = .sleep := by
  decide +kernel

theorem test_M14_rdMCR : defined (exec (.rdMCR .can1) State.reset) = some 0x00010002 := by decide +kernel

theorem test_M15_rdMSR : defined (exec (.rdMSR .can1) State.reset) = some 0x00000002 := by decide +kernel

theorem test_M16_wrMCR :
    refusalOf (exec (.wrMCR .can1 0x00008000) State.reset)
      = some (.masterResetUnmodelled (.access (.write .can1 .mcr 0x00008000))) ∧
    (see (exec (.wrMCR .can1 0x00010041) State.reset) fun s => s.can1.mcr)
      = some { Mcr.atReset with inrq := true, sleep := false, abom := true } := by decide +kernel

theorem test_M17_wrMSR :
    (see (exec (.wrMSR .can1 0x00000008) (with1 { inMode .normal with wkui := true, erri := true }))
      fun s => (s.can1.wkui, s.can1.erri)) = some (false, true) := by decide +kernel

theorem test_M18_leaving_sleep_clears_slaki :
    (agentStep (.modeFsm .can1) (with1 { inMode .sleep with slaki := true })).can1.slaki = false := by decide +kernel

theorem test_M19_entering_sleep_sets_slaki :
    (agentStep (.modeFsm .can1) (with1 { inMode .normal with
      mcr := Mcr.atReset, ier := { Ier.atReset with slkie := true } })).can1.slaki = true := by decide +kernel

theorem test_M20_enterInitBlocking :
    (see (exec (.opEnterInitBlocking .can1) { State.reset with gaps := [[], [.modeFsm .can1]] })
      fun s => (s.can1.mode, s.result)) = some (.init, .flag true) := by decide +kernel

theorem test_M21_enterInitBlocking_times_out :
    (see (exec (.opEnterInitBlocking .can1) (machine { conv with pollBound := 2 } (inMode .normal) (bank0 true)))
      fun s => (s.can1.mcr.inrq, s.can1.mode, s.draws, s.result)) = some (true, .normal, 3, .flag false) := by
  decide +kernel

theorem test_M22_leaveInitBlocking_to_sleep :
    (see (exec (.opLeaveInitBlocking .can1) { with1 { inMode .init with mcr := { Mcr.atReset with inrq := true } } with
      gaps := [[], [.modeFsm .can1]] }) fun s => (s.can1.mode, s.result)) = some (.sleep, .flag true) := by
  decide +kernel

theorem test_M23_leaveInitBlocking :
    (see (exec (.opLeaveInitBlocking .can1) (with1 (inMode .normal))) fun s => (s.draws, s.result))
      = some (2, .flag true) := by decide +kernel

theorem test_M24_enterSleep :
    (see (exec (.opEnterSleep .can1) (with1 (inMode .normal))) fun s => (s.can1.mcr.sleep, s.can1.mcr.dbf, s.can1.mode))
      = some (true, true, .normal) := by decide +kernel

theorem test_P1_leaveSleep :
    (see (exec (.opLeaveSleep .can1) State.reset) fun s => s.can1.mcr) = some { Mcr.atReset with sleep := false } := by
  decide +kernel

theorem test_P1_enterInit :
    (see (exec (.opEnterInit .can1) (with1 (inMode .sleep))) fun s => (s.can1.mcr.inrq, s.can1.mode))
      = some (true, .sleep) := by decide +kernel

theorem test_P1_leaveInit :
    (see (exec (.opLeaveInit .can1) (with1 { inMode .init with mcr := { Mcr.atReset with inrq := true } }))
      fun s => (s.can1.mcr, s.can1.mode)) = some (Mcr.atReset, .init) := by decide +kernel

theorem test_P5_isInit :
    (see (exec (.opIsInit .can1) (with1 (inMode .normal))) fun s => s.result) = some (.flag false) ∧
    (see (exec (.opIsInit .can1) (with1 (inMode .init))) fun s => s.result) = some (.flag true) := by decide +kernel

theorem test_M22_isSleep :
    (see (exec (.opIsSleep .can1) (with1 (inMode .sleep))) fun s => s.result) = some (.flag true) ∧
    (see (exec (.opIsSleep .can1) (with1 (inMode .init))) fun s => s.result) = some (.flag false) := by decide +kernel

theorem test_M25_boffInitSeen :
    (agentStep (.modeFsm .can1) (with1 { inMode .normal with
      mcr := { Mcr.atReset with inrq := true }, esr := { Esr.atReset with boff := true } })).can1.boffInitSeen = true := by
  decide +kernel

/-! ## Bit timing (T1 to T39) -/

/-- T1 to T23: rate, sp, pclk, the timing and the effective bit rate. -/
def timingVectors : List (Nat × Nat × Nat × Timing × Nat) :=
  [(500000, 204, 36000000, ⟨14, 3, 4, 3⟩, 500000), (1000000, 128, 42000000, ⟨8, 5, 3, 4⟩, 1000000),
   (125000, 223, 36000000, ⟨14, 3, 16, 3⟩, 125000), (250000, 128, 8000000, ⟨10, 5, 2, 4⟩, 250000),
   (500000, 128, 8000000, ⟨10, 5, 1, 4⟩, 500000), (1000000, 204, 8000000, ⟨6, 1, 1, 1⟩, 1000000),
   (100000, 204, 36000000, ⟨14, 5, 18, 4⟩, 100000), (7, 128, 49, ⟨3, 3, 1, 3⟩, 7), (1, 128, 1, ⟨0, 0, 0, 0⟩, 0),
   (2, 128, 1, ⟨0, 0, 0, 0⟩, 0), (0, 128, 1000, ⟨0, 0, 0, 0⟩, 0), (10, 128, 100000000, ⟨0, 0, 0, 0⟩, 0)] ++
  [(1000, 128, 1000000000, ⟨0, 0, 0, 0⟩, 0), (125000, 0, 36000000, ⟨12, 5, 16, 4⟩, 125000),
   (125000, 255, 36000000, ⟨14, 3, 16, 3⟩, 125000), (33333, 204, 36000000, ⟨14, 5, 54, 4⟩, 33333),
   (1000000, 128, 24000000, ⟨6, 5, 2, 4⟩, 1000000), (500000, 223, 48000000, ⟨13, 2, 6, 2⟩, 500000),
   (20000, 204, 42000000, ⟨14, 5, 105, 4⟩, 20000), (470000, 204, 36000000, ⟨14, 4, 4, 4⟩, 473684),
   (125001, 204, 36000000, ⟨5, 1, 41, 1⟩, 125435), (1000000, 128, 36000000, ⟨12, 5, 2, 4⟩, 1000000),
   (250000, 204, 36000000, ⟨14, 3, 8, 3⟩, 250000)]

theorem test_T1_T23_computeTiming :
    timingVectors.all (fun v =>
      (see (exec (.opComputeTiming v.1 v.2.1 v.2.2.1) State.reset) fun s => s.result)
        = some (.timing v.2.2.2.1)) = true := by decide +kernel

theorem test_T1_T23_getEffectiveBitrate :
    timingVectors.all (fun v =>
      (see (exec (.opGetEffectiveBitrate v.2.2.2.1 v.2.2.1) State.reset) fun s => s.result)
        = some (.rate v.2.2.2.2)) = true := by decide +kernel

theorem test_T1_T8_btrFields :
    Timing.btrFields ⟨14, 3, 4, 3⟩ = 0x022D0003 ∧ Timing.btrFields ⟨8, 5, 3, 4⟩ = 0x03470002 ∧
    Timing.btrFields ⟨6, 1, 1, 1⟩ = 0x00050000 ∧ Timing.btrFields ⟨3, 3, 1, 3⟩ = 0x02220000 := by decide

theorem test_T38_getEffectiveBitrate :
    (see (exec (.opGetEffectiveBitrate ⟨0, 0, 0, 0⟩ 36000000) State.reset) fun s => s.result) = some (.rate 0) := by
  decide +kernel

/-- BTR = 0x0123_0000, with LBKM and SILM as given. -/
def btrAt (lbkm silm : Bool) : Btr := { Btr.atReset with lbkm, silm }

theorem test_T31_T32_applyTiming :
    (see (exec (.opApplyTiming .can1 ⟨14, 3, 4, 3⟩) (with1 { inMode .init with btr := btrAt false false }))
      fun s => s.can1.btr) = some { brp := 3, ts1 := 13, ts2 := 2, sjw := 2, lbkm := false, silm := false } ∧
    (see (exec (.opApplyTiming .can1 ⟨14, 3, 4, 3⟩) (with1 { inMode .init with btr := btrAt true true }))
      fun s => s.can1.btr) = some { brp := 3, ts1 := 13, ts2 := 2, sjw := 2, lbkm := true, silm := true } := by
  decide +kernel

theorem test_T33_T34_applyTiming_invalid :
    faultOf (exec (.opApplyTiming .can1 ⟨0, 0, 0, 0⟩) (with1 (inMode .init)))
      = some (.invalidTiming (.operation (.opApplyTiming .can1 ⟨0, 0, 0, 0⟩))) ∧
    faultOf (exec (.opApplyTiming .can1 ⟨17, 3, 4, 3⟩) (with1 (inMode .init)))
      = some (.invalidTiming (.operation (.opApplyTiming .can1 ⟨17, 3, 4, 3⟩))) := by decide +kernel

theorem test_T30_T39_rdBTR :
    defined (exec (.rdBTR .can1) State.reset) = some 0x01230000 ∧
    defined (exec (.rdBTR .can1) (with1 { inMode .init with
      btr := { brp := 1023, ts1 := 15, ts2 := 7, sjw := 3, lbkm := true, silm := true } })) = some 0xC37F03FF := by
  decide +kernel

theorem test_T35_wrBTR_faults :
    faultOf (exec (.wrBTR .can1 0x022D0003) (with1 (inMode .normal)))
      = some (.btrWriteOutsideInit (.access (.write .can1 .btr 0x022D0003))) := by decide +kernel

theorem test_T39_wrBTR :
    (see (exec (.wrBTR .can1 0xFFFFFFFF) (with1 (inMode .init))) fun s => (s.can1.btr.timing, s.can1.btr.lbkm))
      = some (⟨16, 8, 1024, 4⟩, true) := by decide +kernel

/-! ## Filter bank (F1 to F43) -/

/-- A frame with a standard identifier and no data. -/
def stdFrame (id : BitVec 11) (rtr : Bool) : Frame := { id := .standard id, rtr, dlc := 0, data := Vector.replicate 8 0 }

/-- A frame with an extended identifier and no data. -/
def extFrame (id : BitVec 29) (rtr : Bool) : Frame := { id := .extended id, rtr, dlc := 0, data := Vector.replicate 8 0 }

theorem test_F1_F11_w32 :
    (stdFrame 0x123 false).w32 = 0x24600000 ∧ (stdFrame 0x123 true).w32 = 0x24600002 ∧
    (extFrame 0x12345678 false).w32 = 0x91A2B3C4 ∧ (extFrame 0x12345678 true).w32 = 0x91A2B3C6 ∧
    (extFrame 0x123 false).w32 = 0x0000091C ∧ (stdFrame 0x7FF true).w32 = 0xFFE00002 ∧
    (extFrame 0x923 false).w32 = 0x0000491C ∧ (extFrame 0x124 false).w32 = 0x00000924 ∧
    (stdFrame 0 false).w32 = 0 ∧ (extFrame 0x1ABCDE false).w32 = 0x00D5E6F4 := by decide +kernel

theorem test_F1_F11_w16 :
    (stdFrame 0x123 false).w16 = 0x2460 ∧ (stdFrame 0x123 true).w16 = 0x2470 ∧
    (extFrame 0x12345678 false).w16 = 0x91A8 ∧ (extFrame 0x12345678 true).w16 = 0x91B8 ∧
    (extFrame 0x123 false).w16 = 0x0008 ∧ (stdFrame 0x7FF true).w16 = 0xFFF0 ∧
    (stdFrame 0x124 false).w16 = 0x2480 ∧ (extFrame 0x1ABCDE false).w16 = 0x00CD := by decide +kernel

theorem test_F12_F15_mask32 :
    filterMatches conv true false ⟨0x918, 0x3FF8⟩ 0 (extFrame 0x123 false) = true ∧
    filterMatches conv true false ⟨0x918, 0x3FF8⟩ 0 (extFrame 0x923 false) = true ∧
    filterMatches conv true false ⟨0x918, 0x3FF8⟩ 0 (extFrame 0x124 false) = false ∧
    filterMatches conv true false ⟨0x918, 0x3FF8⟩ 0 (stdFrame 0x123 false) = false ∧
    filterMatches conv true false ⟨0x918, 0⟩ 0 (stdFrame 0x7FF true) = true := by decide +kernel

theorem test_F16_F19_sixteen_bits :
    filterMatches conv false false ⟨0xFFE02460, 0⟩ 0 (stdFrame 0x123 true) = true ∧
    filterMatches conv false false ⟨0xFFE02460, 0⟩ 0 (stdFrame 0x124 false) = false ∧
    filterMatches conv false false ⟨0xFFE02460, 0⟩ 0 (extFrame 0x123 false) = false ∧
    filterMatches conv false true ⟨0x24602480, 0⟩ 0 (stdFrame 0x124 false) = true ∧
    filterMatches conv false true ⟨0x24602480, 0⟩ 1 (stdFrame 0x123 false) = true ∧
    filterMatches conv false true ⟨0x24602480, 0⟩ 3 (stdFrame 0 false) = true := by decide +kernel

theorem test_F21_list32 :
    filterMatches conv true true ⟨0x24600000, 0x0000091C⟩ 0 (stdFrame 0x123 false) = true ∧
    filterMatches conv true true ⟨0x24600000, 0x0000091C⟩ 1 (extFrame 0x123 false) = true ∧
    filterMatches conv true true ⟨0x24600000, 0x0000091C⟩ 0 (stdFrame 0x123 true) = false := by decide +kernel

/-- The four banks of F23 to F28, bank 3 active or not. -/
def fourBanks (active3 : Bool) : FilterBlock :=
  { bank0 false with
    fsc := 0b1001, fbm := 0b1100, ffa := 0b1010, fact := if active3 then 0b1111 else 0b0111
    fr := (((Vector.replicate 28 ⟨0, 0⟩).set 0 ⟨0x918, 0x3FF8⟩).set 1 ⟨0xFFE02460, 0⟩ |>.set 2 ⟨0x24602480, 0⟩).set 3
      ⟨0x24600000, 0x0000091C⟩ }

theorem test_F23_F28_accept :
    accept conv (fourBanks true) .can1 (stdFrame 0x123 false) = [(.f1, 2)] ∧
    accept conv (fourBanks true) .can1 (extFrame 0x123 false) = [(.f1, 3)] ∧
    accept conv (fourBanks true) .can1 (extFrame 0x923 false) = [(.f0, 0)] ∧
    accept conv (fourBanks true) .can1 (stdFrame 0x7FF true) = [(.f1, 1)] ∧
    accept conv (fourBanks true) .can1 (stdFrame 0 false) = [(.f0, 3)] ∧
    accept conv (fourBanks false) .can1 (stdFrame 0x123 false) = [(.f0, 2)] := by decide +kernel

/-- Two banks that match alike (F29). -/
def twinBanks : FilterBlock :=
  { bank0 false with
    fsc := 0b11, fbm := 0b11, ffa := 0b10, fact := 0b11
    fr := ((Vector.replicate 28 ⟨0, 0⟩).set 0 ⟨0x24600000, 0xFFFFFFFF⟩).set 1 ⟨0x24600000, 0xFFFFFFFF⟩ }

theorem test_F29_tie : accept conv twinBanks .can1 (stdFrame 0x123 false) = [(.f0, 0), (.f1, 0)] := by decide +kernel

/-- A part with its latch held, to configure. -/
def part (p : Params) : State := machine p (inMode .normal) (bank0 true)

/-- Scale, mode, FIFO and activation of bank b, its words, and the latch. -/
structure BankView where
  scale32 : Bool
  listMode : Bool
  toFifo1 : Bool
  active : Bool
  words : BankWords
  latch : Bool
  deriving DecidableEq, Repr

/-- What bank b holds. -/
def bankState (b : Fin 28) (s : State) : BankView where
  scale32 := s.filter.fsc.getLsbD b.val
  listMode := s.filter.fbm.getLsbD b.val
  toFifo1 := s.filter.ffa.getLsbD b.val
  active := s.filter.fact.getLsbD b.val
  words := s.filter.fr[b]
  latch := s.filter.finit

theorem test_F20_F41_filterIdMask32 :
    (see (exec (.opFilterIdMask32 .can1 0 0x123 0x7FF 0 true) (part conv)) (bankState 0))
      = some ⟨true, false, false, true, ⟨0x918, 0x3FF8⟩, false⟩ ∧
    (see (exec (.opFilterIdMask32 .can1 0 0xFFFFFFFF 0 0 true) (part conv)) (bankState 0))
      = some ⟨true, false, false, true, ⟨0xFFFFFFF8, 0⟩, false⟩ := by decide +kernel

theorem test_F38_filterIdMask16 :
    (see (exec (.opFilterIdMask16 .can1 1 0x2460 0xFFE0 0 0 1 true) (part conv)) (bankState 1))
      = some ⟨false, false, true, true, ⟨0xFFE02460, 0⟩, false⟩ := by decide +kernel

theorem test_F39_filterIdList16 :
    (see (exec (.opFilterIdList16 .can1 2 0x2460 0x2480 0 0 0 true) (part conv)) (bankState 2))
      = some ⟨false, true, false, true, ⟨0x24602480, 0⟩, false⟩ := by decide +kernel

theorem test_F40_filterIdList32 :
    (see (exec (.opFilterIdList32 .can1 3 0x24600000 0x0000091C 1 true) (part { conv with packShift := 0 }))
      (bankState 3)) = some ⟨true, true, true, true, ⟨0x24600000, 0x0000091C⟩, false⟩ := by decide +kernel

theorem test_P1_configureFilter :
    (see (exec (.opConfigureFilter .can1 27 true false 0xFFFFFFFF 1 1 false) (part dual)) (bankState 27))
      = some ⟨true, false, true, false, ⟨0xFFFFFFFF, 1⟩, false⟩ := by decide +kernel

theorem test_F36_F37_configureFilter_faults :
    faultOf (exec (.opConfigureFilter .can1 14 true false 0 0 0 true) (part conv))
      = some (.bankOutOfRange (.operation (.opConfigureFilter .can1 14 true false 0 0 0 true))) ∧
    faultOf (exec (.opConfigureFilter .can1 0 true false 0 0 2 true) (part conv))
      = some (.badFifoId (.operation (.opConfigureFilter .can1 0 true false 0 0 2 true))) := by decide +kernel

theorem test_F30_rdFMR : defined (exec (.rdFMR .can1) (part conv)) = some 1 ∧
    defined (exec (.rdFMR .can1) State.reset) = some 0x00000E01 := by decide +kernel

theorem test_F31_wrFS1R :
    faultOf (exec (.wrFS1R .can1 1) (machine conv (inMode .normal) (bank0 false)))
      = some (.filterWriteOutsideInit (.access (.write .can1 .fs1r 1))) ∧
    (see (exec (.wrFS1R .can1 0xFFFFFFFF) (part conv)) fun s => s.filter.fsc) = some 0x3FFF := by decide +kernel

theorem test_F32_wrFMR :
    (see (exec (.wrFMR .can1 0x00000001) (machine conv (inMode .normal) (bank0 false))) fun s => s.filter.finit)
      = some true := by decide +kernel

theorem test_F33_F34_wrFMR_faults :
    faultOf (exec (.wrFMR .can1 0x00001000) (machine dual (inMode .normal) (bank0 false)))
      = some (.filterWriteOutsideInit (.access (.write .can1 .fmr 0x00001000))) ∧
    faultOf (exec (.wrFMR .can1 0x00001D01) (part dual))
      = some (.can2sbRange (.access (.write .can1 .fmr 0x00001D01))) := by decide +kernel

theorem test_wrFM1R : (see (exec (.wrFM1R .can1 0xFFFFFFFF) (part dual)) fun s => s.filter.fbm) = some 0xFFFFFFF := by
  decide +kernel

theorem test_wrFFA1R : (see (exec (.wrFFA1R .can1 0x0000000A) (part conv)) fun s => s.filter.ffa) = some 0xA := by
  decide +kernel

theorem test_wrFA1R : (see (exec (.wrFA1R .can1 0x80000001) (part conv)) fun s => s.filter.fact) = some 0x1 := by
  decide +kernel

theorem test_rd_vectors :
    defined (exec (.rdFM1R .can1) (machine conv (inMode .normal) (fourBanks true))) = some 0xC ∧
    defined (exec (.rdFS1R .can1) (machine conv (inMode .normal) (fourBanks true))) = some 0x9 ∧
    defined (exec (.rdFFA1R .can1) (machine conv (inMode .normal) (fourBanks true))) = some 0xA ∧
    defined (exec (.rdFA1R .can1) (machine conv (inMode .normal) (fourBanks true))) = some 0xF := by decide +kernel

theorem test_wrF13R2 : (see (exec (.wrF13R2 .can1 0x12345678) (part conv)) fun s => (s.filter.fr[13], s.filter.fr[12]))
    = some (⟨0, 0x12345678⟩, ⟨0, 0⟩) := by decide +kernel

theorem test_rdF3R1 :
    defined (exec (.rdF3R1 .can1) (machine conv (inMode .normal) (fourBanks true))) = some 0x24600000 ∧
    defined (exec (.rdF3R2 .can1) (machine conv (inMode .normal) (fourBanks true))) = some 0x0000091C := by
  decide +kernel

theorem test_F42_F43_serves :
    serves dual (bank0 true) 20 .can1 = false ∧ serves dual (bank0 true) 20 .can2 = true ∧
    serves dual (bank0 true) 13 .can1 = true ∧ serves { dual with nbanks := .banks14 } (bank0 true) 3 .can2 = false := by
  decide +kernel

/-! ## Transmit (X1 to X22) -/

/-- Mailbox 0 requested. -/
def sending (c : Controller) (m : Mailbox) : State := with1 { c with mb0 := { m with pending := true } }

theorem test_X1_X2_rdTSR :
    defined (exec (.rdTSR .can1) State.reset) = some 0x1C000000 ∧
    defined (exec (.rdTSR .can1) (sending (inMode .normal) noFrame)) = some 0x18000000 := by decide +kernel

/-- The draws of a reception, when none matters. -/
def noDraws : RxDraws := { stamp := 0, residue := Vector.replicate 8 0, pick := 0 }

theorem test_X3_success :
    defined (exec (.rdTSR .can1) (agentStep (.txAttempt .can1 .m0 0 0 0 (.success true true noDraws))
      (sending (inMode .normal) noFrame))) = some 0x1C000003 := by decide +kernel

theorem test_X4_X9_wrTSR :
    defined (exec (.rdTSR .can1) (((after (exec (.wrTSR .can1 0x00000001)
      (with1 { inMode .normal with mb0 := { noFrame with rqcp := true, txok := true } }))).getD State.reset)))
      = some 0x1C000000 ∧
    defined (exec (.rdTSR .can1) (((after (exec (.wrTSR .can1 0x00000080) (with1 (inMode .normal)))).getD State.reset)))
      = some 0x1C000000 := by decide +kernel

theorem test_X5_arbitration_lost :
    defined (exec (.rdTSR .can1) (agentStep (.txAttempt .can1 .m0 0 0 0 .arbitrationLost)
      (sending { inMode .normal with mcr := { Mcr.atReset with nart := true } } noFrame))) = some 0x1C000005 := by
  decide +kernel

theorem test_X6_error :
    (fun s : State => (defined (exec (.rdTSR .can1) s), s.can1.esr.lec))
      (agentStep (.txAttempt .can1 .m0 0 0 0 (.error .acknowledgment { tec := 8, rxec := 0, boff := false }))
        (sending (inMode .normal) noFrame)) = (some 0x18000008, 3) := by decide +kernel

theorem test_X7_wrTSR_aborts :
    (see (exec (.wrTSR .can1 0x00800000) (with1 { inMode .normal with mb2 := { noFrame with pending := true } }))
      fun s => defined (exec (.rdTSR .can1) s)) = some (some 0x0C800000) := by decide +kernel

theorem test_X8_abort :
    defined (exec (.rdTSR .can1) (agentStep (.txAbort .can1 .m2)
      (with1 { inMode .init with mb2 := { noFrame with pending := true, abrq := true } }))) = some 0x1C010000 := by
  decide +kernel

theorem test_X10_X11_getEmptyMailbox :
    (see (exec (.opGetEmptyMailbox .can1) (with1 (inMode .normal))) fun s => s.result) = some (.mailbox (some .m0)) ∧
    (see (exec (.opGetEmptyMailbox .can1) (sending (inMode .normal) noFrame)) fun s => s.result)
      = some (.mailbox (some .m1)) := by decide +kernel

/-- Mailboxes 0 and 1 pending, mailbox 2 as given. -/
def full (third : Bool) : State :=
  with1 { inMode .normal with mb0 := { noFrame with pending := true }, mb1 := { noFrame with pending := true },
                              mb2 := { noFrame with pending := third } }

theorem test_X12_X13_getEmptyMailbox :
    (see (exec (.opGetEmptyMailbox .can1) (full false)) fun s => s.result) = some (.mailbox (some .m2)) ∧
    (see (exec (.opGetEmptyMailbox .can1) (full true)) fun s => s.result) = some (.mailbox none) := by decide +kernel

theorem test_X12_X13_availableMailbox :
    (see (exec (.opAvailableMailbox .can1) (full false)) fun s => s.result) = some (.flag true) ∧
    (see (exec (.opAvailableMailbox .can1) (full true)) fun s => s.result) = some (.flag false) := by decide +kernel

theorem test_X14_wrTDL1R : faultOf (exec (.wrTDL1R .can1 0) (full true))
    = some (.mailboxWriteWhilePending (.access (.write .can1 (.tdlr .m1) 0))) := by decide +kernel

theorem test_X15_wrTI1R :
    (see (exec (.wrTI1R .can1 0x0000091D) (with1 (inMode .normal)))
      fun s => (s.can1.mb1.pending, defined (exec (.rdTI1R .can1) s))) = some (true, some 0x0000091D) := by
  decide +kernel

theorem test_wrTDT2R :
    (see (exec (.wrTDT2R .can1 0x1234010C) (with1 (inMode .normal)))
      fun s => (s.can1.mb2, defined (exec (.rdTDT2R .can1) s)))
      = some ({ noFrame with dlc := 12, tgt := true, time := 0x1234 }, some 0x1234010C) := by decide +kernel

theorem test_wrTDH0R :
    (see (exec (.wrTDH0R .can1 0x88776655) (with1 (inMode .normal)))
      fun s => (s.can1.mb0, defined (exec (.rdTDH0R .can1) s)))
      = some ({ noFrame with dhi := 0x88776655 }, some 0x88776655) := by decide +kernel

theorem test_X16_transmit :
    (see (exec (.opTransmit .can1 0x12345678 true true 0 []) (with1 (inMode .normal)))
      fun s => (defined (exec (.rdTI0R .can1) s), s.can1.mb0.dlc, s.result)) = some (some 0x91A2B3C7, 0, .int 0) := by
  decide +kernel

theorem test_X17_X18_transmit :
    (see (exec (.opTransmit .can1 0x800 false false 1 [0x55]) (with1 (inMode .normal)))
      fun s => s.can1.mb0.tir) = some 0 ∧
    (see (exec (.opTransmit .can1 0x123 false false 12 [1, 2, 3, 4, 5, 6, 7, 8, 9, 10, 11, 12]) (with1 (inMode .normal)))
      fun s => (s.can1.mb0.dlc, s.can1.mb0.dlo, s.can1.mb0.dhi)) = some (12, 0x04030201, 0x08070605) := by
  decide +kernel

theorem test_X19_frame_on_the_bus :
    (agentStep (.txAttempt .can1 .m0 0 0 0 (.success true true noDraws)) (sending (inMode .normal)
      { noFrame with tir := 0x12300000, dlc := 12, dlo := 0x04030201, dhi := 0x08070605 })).busOut
      = [(.can1, { id := .standard 0x123, rtr := false, dlc := 12, data := #v[1, 2, 3, 4, 5, 6, 7, 8] })] := by
  decide +kernel

theorem test_X20_X21_not_enabled :
    (agentStep (.txAttempt .can1 .m0 0 0 0 (.success true true noDraws))
      (sending { inMode .normal with btr := btrAt false true } noFrame)).can1.mb0.pending = true ∧
    (agentStep (.txAttempt .can1 .m0 0 0 0 (.success true true noDraws)) (sending (inMode .init) noFrame)).can1.mb0.pending
      = true := by decide +kernel

theorem test_X22_time_triggered :
    ((agentStep (.txAttempt .can1 .m0 0 0xAA 0xBB (.success true true noDraws))
      (sending { inMode .normal with mcr := { Mcr.atReset with ttcm := true } }
        { noFrame with dlc := 8, tgt := true, dhi := 0x88776655 })).busOut.map fun e => e.2.data)
      = [#v[0, 0, 0, 0, 0x55, 0x66, 0xAA, 0xBB]] := by decide +kernel

/-! ## Receive (V1 to V14) -/

/-- An entry whose identifier word is given. -/
def entryWith (w : BitVec 31) : Entry := { rir := w, dlc := 8, fmi := 5, time := 0x1234, dlo := 0x44332211, dhi := 0 }

/-- FIFO 0 after frames A, B, C. -/
def fifoABC : Fifo :=
  (((⟨[], false, false⟩ : Fifo).enqueue false (entryWith 1)).enqueue false (entryWith 2)).enqueue false (entryWith 3)

/-- FIFO 0 as given. -/
def withFifo (f : Fifo) : State := with1 { inMode .normal with fifo0 := f }

theorem test_V1_V2_rdRF0R :
    defined (exec (.rdRF0R .can1) (withFifo fifoABC)) = some 0x0000000B ∧
    defined (exec (.rdRF0R .can1) (withFifo (fifoABC.enqueue false (entryWith 4)))) = some 0x0000001B := by decide +kernel

theorem test_V2_V3_overrun :
    (fifoABC.enqueue false (entryWith 4)).q = [entryWith 1, entryWith 2, entryWith 4] ∧
    fifoABC.enqueue true (entryWith 4) = { fifoABC with fovr := true } := by decide +kernel

theorem test_V4_wrRF0R :
    (see (exec (.wrRF0R .can1 0x00000020) (withFifo (fifoABC.enqueue false (entryWith 4))))
      fun s => (s.can1.fifo0.q, defined (exec (.rdRF0R .can1) s)))
      = some ([entryWith 2, entryWith 4], some 0x0000001A) := by decide +kernel

theorem test_V5_releaseFifo :
    (see (exec (.opReleaseFifo .can1 0) (withFifo (fifoABC.enqueue false (entryWith 4)))) fun s => s.can1.fifo0)
      = some ⟨[entryWith 2, entryWith 4], false, false⟩ := by decide +kernel

theorem test_V6_wrRF1R :
    (see (exec (.wrRF1R .can1 0x00000020) (with1 (inMode .normal))) fun s => s.can1.fifo1)
      = some ⟨[], false, false⟩ ∧
    defined (exec (.rdRF1R .can1) (with1 (inMode .normal))) = some 0 := by decide +kernel

theorem test_V7_rdRI0R_empty : defined (exec (.rdRI0R .can1) (withFifo ⟨[], false, false⟩)) = some 0 := by decide +kernel

/-- The head entry of V8: extended 0x1234_5678, remote. -/
def headV8 : Fifo := ⟨[entryWith 0x48D159E3], false, false⟩

theorem test_V8_output_mailbox :
    defined (exec (.rdRI0R .can1) (withFifo headV8)) = some 0x91A2B3C6 ∧
    defined (exec (.rdRDT0R .can1) (withFifo headV8)) = some 0x12340508 ∧
    defined (exec (.rdRDL0R .can1) (withFifo headV8)) = some 0x44332211 := by decide +kernel

theorem test_V8_receive :
    (see (exec (.opReceive .can1 0 false) (withFifo headV8)) fun s => (s.result, s.can1.fifo0.q.length))
      = some (.frame { id := .extended 0x12345678, isRemoteRequest := true, filterMatchIndex := 5, length := 8,
                       data := #v[0x11, 0x22, 0x33, 0x44, 0, 0, 0, 0] }, 1) := by decide +kernel

theorem test_E13_receive_releases :
    (see (exec (.opReceive .can1 0 true) (withFifo ⟨[{ entryWith 0x12300000 with dlc := 4 }], false, false⟩))
      fun s => (s.result, s.can1.fifo0))
      = some (.frame { id := .standard 0x123, isRemoteRequest := false, filterMatchIndex := 5, length := 4,
                       data := #v[0x11, 0x22, 0x33, 0x44, 0, 0, 0, 0] }, ⟨[], false, false⟩) := by decide +kernel

theorem test_V10_badFifoId :
    faultOf (exec (.opReceive .can1 2 true) State.reset) = some (.badFifoId (.operation (.opReceive .can1 2 true))) ∧
    faultOf (exec (.opReleaseFifo .can1 2) State.reset) = some (.badFifoId (.operation (.opReleaseFifo .can1 2))) := by
  decide +kernel

theorem test_wr_output_mailbox_ignored :
    (see (exec (.wrRI0R .can1 0xFFFFFFFF) (withFifo headV8)) fun s => s.can1.fifo0) = some headV8 ∧
    (see (exec (.wrRDH1R .can1 0xFFFFFFFF) (withFifo headV8)) fun s => s.can1.fifo0) = some headV8 := by decide +kernel

/-- A machine with the four banks of F23 configured. -/
def listening (c : Controller) : State := machine conv c (fourBanks true)

theorem test_V11_V12_no_reception :
    (agentStep (.rxFrame .can1 (stdFrame 0x123 false) noDraws)
      (listening { inMode .normal with btr := btrAt true false })).can1.fifo1.q = [] ∧
    (agentStep (.rxFrame .can1 (stdFrame 0x123 false) noDraws) (listening (inMode .init))).can1.fifo1.q = [] := by
  decide +kernel

theorem test_F23_frame_is_stored :
    ((agentStep (.rxFrame .can1 (stdFrame 0x123 false) noDraws) (listening (inMode .normal))).can1.fifo1.q.map
      fun e => (e.rir, e.fmi)) = [(0x12300000, 2)] := by decide +kernel

theorem test_F35_V13_discarded :
    (agentStep (.rxFrame .can1 (stdFrame 0x123 false) noDraws) (with1 (inMode .normal))).can1.fifo0.q = [] ∧
    (agentStep (.rxFrame .can1 (stdFrame 0x123 false) noDraws)
      (with1 { inMode .normal with esr := { Esr.atReset with lec := 3 } })).can1.esr.lec = 0 := by decide +kernel

/-! ## Errors, interrupts, power (G1 to G11) -/

/-- The state after G1: an acknowledgment error with EWGIE. -/
def afterG1 : State :=
  agentStep (.errorEvent .can1 (some .acknowledgment) { tec := 100, rxec := 0, boff := false })
    (with1 { inMode .normal with ier := { Ier.atReset with ewgie := true } })

theorem test_G1_error_event :
    (afterG1.can1.esr, afterG1.can1.erri)
      = (⟨true, false, false, 3, 100, 0⟩, true) := by decide +kernel

theorem test_G2_error_event :
    (fun s : State => (s.can1.esr.epvf, s.can1.erri))
      (agentStep (.errorEvent .can1 none { tec := 130, rxec := 0, boff := false }) afterG1) = (true, true) := by
  decide +kernel

/-- An instance that is bus-off. -/
def busOff (seen : Bool) : State :=
  with1 { inMode .normal with esr := ⟨true, true, true, 0, 255, 0⟩, boffInitSeen := seen }

theorem test_G3_G4_recovery :
    agentStep (.busOffRecovery .can1) (busOff false) = busOff false ∧
    (agentStep (.busOffRecovery .can1) (busOff true)).can1.esr = ⟨false, false, false, 0, 0, 0⟩ := by
  constructor
  · rfl
  · decide +kernel

theorem test_G5_G7_G10_lines :
    { inMode .normal with ier := { Ier.atReset with fmpie0 := true }, fifo0 := headV8 }.lineRx0 = true ∧
    { inMode .normal with ier := { Ier.atReset with fmpie0 := true }, fifo0 := headV8 }.lineTx = false ∧
    { inMode .normal with ier := { Ier.atReset with tmeie := true }, mb1 := { noFrame with rqcp := true } }.lineTx = true ∧
    { inMode .normal with ier := { Ier.atReset with wkuie := true }, wkui := true }.lineSce = true := by decide +kernel

theorem test_G6_wrIER :
    (see (exec (.wrIER .can1 0) (with1 { inMode .normal with
      ier := { Ier.atReset with fmpie0 := true }, fifo0 := headV8 }))
      fun s => (s.can1.lineRx0, s.can1.fifo0.q.length)) = some (false, 1) ∧
    (see (exec (.wrIER .can1 0x00038F7F) (with1 (inMode .normal))) fun s => defined (exec (.rdIER .can1) s))
      = some (some 0x00038F7F) := by decide +kernel

theorem test_rdIER : defined (exec (.rdIER .can1) (with1 { inMode .normal with
    ier := { Ier.atReset with fmpie0 := true, errie := true, slkie := true } })) = some 0x00028002 := by decide +kernel

theorem test_G8_G9_wake_up :
    (fun s : State => (s.can1.wkui, s.can1.mcr.sleep, s.can1.mode)) (agentStep (.wakeUp .can1)
      (with1 { inMode .sleep with mcr := { Mcr.atReset with awum := true } })) = (true, false, .sleep) ∧
    (fun s : State => (s.can1.wkui, s.can1.mcr.sleep, s.can1.mode)) (agentStep (.wakeUp .can1)
      (with1 { inMode .sleep with mcr := Mcr.atReset })) = (true, true, .sleep) := by decide +kernel

theorem test_G11_wrESR :
    (see (exec (.wrESR .can1 0x00000070) (with1 (inMode .normal))) fun s => (s.can1.esr, s.can1.erri))
      = some ({ Esr.atReset with lec := 7 }, false) := by decide +kernel

theorem test_rdESR : defined (exec (.rdESR .can1) (with1 { inMode .normal with esr := ⟨true, true, true, 6, 0x81, 0x60⟩ }))
    = some 0x60810067 := by decide +kernel

/-! ## Reset (S1 to S4) -/

theorem test_S1_S4_reset :
    (see (exec (.opReset .can1) (full true)) fun s =>
      (s.can1.mcr, s.can1.mode, s.can1.btr, s.can1.mb0.pending, s.filter.finit))
      = some (Mcr.atReset, .sleep, Btr.atReset, false, true) := by decide +kernel

theorem test_S3_reset_of_the_other_instance :
    (see (exec (.opReset .can2) (machine dual (inMode .normal) (fourBanks true))) fun s =>
      (s.filter.fact, s.filter.finit, s.can2.mode, s.can1.mode)) = some (0xF, false, .sleep, .normal) := by decide +kernel

theorem test_S2_reset_asserted :
    (see (runRequest (.resetAssert .can1) State.reset) fun s => faultOf (exec (.rdMCR .can1) s))
      = some (some (.accessDuringReset (.access (Access.read .can1 .mcr)))) := by decide +kernel

/-! ## Steps -/

theorem test_step_runs_the_placed_word :
    defined (step (State.reset.withFetchWord 16 0x01C)) = some 0x01230000 := by decide +kernel

theorem test_step_idle : step (with1 (inMode .normal)) = .next (with1 (inMode .normal)) := rfl

/-! ## The hypotheses of the statements are met

For each statement with hypotheses, states and operands that meet them, clause by clause, at the ends of their ranges.
Where a clause's hypothesis is a plain case of a number or a Boolean, the witness names the values. -/

/-- The machine after reset with a program and a schedule. -/
def scheduled (program : List HostRequest) (gaps : List (List AgentStep)) : State := { State.reset with program, gaps }

/-- The registers a host reaches in every window. -/
def controllerRegs : List Reg :=
  [.mcr, .msr, .tsr, .rfr .f0, .rfr .f1, .ier, .esr, .btr, .tir .m0, .tdhr .m2, .rir .f0, .rdhr .f1]

/-- The registers of the filter block, with the words of a bank. -/
def filterRegs (b : Fin 28) : List Reg := [.fmr, .fm1r, .fs1r, .ffa1r, .fa1r, .fr b .r1, .fr b .r2]

/-- Accesses are let through, at the ends of every register block. This is the one hypothesis of
ReadsChangeNoBlockState, McrAndMsrReadTheirFields, ModeRequestsRewriteOneMcrBit, ModeQueriesReadTheMode, TsrReadAndWrite,
MailboxRegistersRead and IerAndEsrReadAndWrite. -/
theorem witness_accessible :
    controllerRegs.all (fun r => accessible State.reset .can1 r && accessible State.reset .can2 r) = true ∧
    (filterRegs 0 ++ filterRegs 27).all (fun r => accessible State.reset .can1 r) = true ∧
    (filterRegs 0 ++ filterRegs 13).all (fun r => accessible (part conv) .can1 r) = true ∧
    (filterRegs 27).all (fun r => accessible (part { dual with filterOwner := .can2 }) .can2 r) = true := by
  decide +kernel

theorem witness_DecodeInvertsEncode :
    (Instr.rdMCR .can2).wellFormed = true ∧ (Instr.wrF27R2 .can1 0xFFFFFFFF).wellFormed = true ∧
    (Instr.opTransmit .can1 0x1FFFFFFF true true 255 (List.replicate 255 0xFF)).wellFormed = true ∧
    (Instr.opTransmit .can1 0 false false 0 []).wellFormed = true ∧
    (Instr.opComputeTiming (2 ^ 32 - 1) 255 (2 ^ 32 - 1)).wellFormed = true ∧
    (Instr.opConfigureFilter .can2 255 true true 0 0 255 true).wellFormed = true := by decide +kernel

theorem witness_DecodedBytesAreTheEncoding :
    (decode (encode (.wrBTR .can2 0x80000001))).toOption = some (.wrBTR .can2 0x80000001) ∧
    (decode (encode (.opReceive .can1 1 true))).toOption = some (.opReceive .can1 1 true) := by decide +kernel

theorem witness_PhysicalAddressesReachTheirRegister :
    hasInst State.reset.params .can1 = true ∧ hasInst State.reset.params .can2 = true ∧ (0x3FF : Nat) < 0x400 ∧
    State.reset.params.canBase1 + 0x400 ≤ State.reset.params.canBase2 := by decide +kernel

theorem witness_ReservedOffsetsFault :
    (∀ off ∈ [0x020, 0x17C, 0x1D0, 0x1FC, 0x208, 0x210, 0x218, 0x220, 0x23C, 0x2B0, 0x3FC],
      off % 4 = 0 ∧ reservedAt conv .can1 off) ∧
    (∀ off ∈ [0x320, 0x3FC], off % 4 = 0 ∧ reservedAt dual .can1 off) ∧
    (∀ off ∈ [0x200, 0x31C, 0x3FC], off % 4 = 0 ∧ reservedAt dual .can2 off) ∧
    hasInst (part dual).params .can2 = true ∧ ((part dual).can .can2).resetAsserted = false := by
  unfold reservedAt
  decide +kernel

/-- The offsets beside the reserved ranges hold registers. -/
theorem witness_ReservedOffsetsFault_ends :
    (∀ off ∈ [0x01C, 0x180, 0x1CC, 0x200, 0x20C, 0x214, 0x21C, 0x240, 0x2AC], ¬reservedAt conv .can1 off) ∧
    (∀ off ∈ [0x240, 0x31C], ¬reservedAt dual .can1 off) ∧ (∀ off ∈ [0x000, 0x1CC], ¬reservedAt dual .can2 off) := by
  unfold reservedAt
  decide +kernel

theorem witness_BadWidthOrAlignmentFaults :
    hasInst State.reset.params .can2 = true ∧ (State.reset.can .can2).resetAsserted = false ∧
    (0 : Nat) < 0x400 ∧ (Width.w8 : Width) ≠ .w32 ∧ (0x3FF : Nat) < 0x400 ∧ 0x3FF % 4 ≠ 0 ∧ 1 % 4 ≠ 0 := by
  decide +kernel

theorem witness_UnknownSelectorsAreRefused :
    ∀ selector ∈ ([0x09, 0x1F, 0x23, 0x3F, 0x45, 0x63, 0x7F, 0x82, 0xFF] : List Byte), selector.toNat ∉
      [0x00, 0x01, 0x02, 0x03, 0x04, 0x05, 0x06, 0x07, 0x08, 0x20, 0x21, 0x22, 0x40, 0x41, 0x42, 0x43, 0x44, 0x60,
       0x61, 0x62, 0x80, 0x81] := by decide +kernel

theorem witness_StepRunsTheDecodedInstruction :
    decode (encode (.rdMCR .can1)) = .ok (.rdMCR .can1) ∧ (callProg (.rdMCR .can1)).isNone = true ∧
    (callProg (.opIsInit .can1)).isNone = true ∧ (callProg (.opComputeTiming 0 0 0)).isNone = true ∧
    (scheduled [.code (encode (.rdMCR .can1))] []).call = none ∧
    (scheduled [.code (encode (.rdMCR .can1))] []).gaps = [] ∧
    (scheduled [.code (encode (.rdMCR .can1))] []).program = [.code (encode (.rdMCR .can1))] ∧
    decode (encode (.opEnterInit .can1)) = .ok (.opEnterInit .can1) ∧
    (scheduled [.atOnce (encode (.opEnterInit .can1))] [[], [.modeFsm .can1]]).program
      = [.atOnce (encode (.opEnterInit .can1))] ∧
    (scheduled [.atOnce (encode (.opEnterInit .can1))] [[], [.modeFsm .can1]]).gaps = [] :: [[.modeFsm .can1]] ∧
    (scheduled [] [[.modeFsm .can1, .wakeUp .can2]]).gaps = (.modeFsm .can1 :: [.wakeUp .can2]) :: [] ∧
    decodeTableWord 16 0x000 = some (.rdMCR .can1) ∧ decodeTableWord 8 0x81 = some (.opReleaseFifo .can1 0) := by
  decide +kernel

/-- What a state shows between the host steps of an operation: MCR, whether the host is in an operation, the result. -/
def between (o : Host.Outcome State Fault Refusal) : Option (Bool × Bool × Result) :=
  see o fun s => (s.can1.mcr.inrq, s.call.isSome, s.result)

/-- `op enterInit` from reset as the host issues it: its read in one step, its write in the next (R211). -/
theorem test_turns_enterInit :
    between (stepsFrom 1 (scheduled [.code (encode (.opEnterInit .can1))] [])) = some (false, true, .none) ∧
    between (stepsFrom 2 (scheduled [.code (encode (.opEnterInit .can1))] [])) = some (true, false, .none) := by
  decide +kernel

/-- R217's example: `ModeFsm` steps after the third read of MSR, and the fourth read, the sixth access, sees INAK. -/
theorem test_R217_turns :
    between (stepsFrom 6 (scheduled [.code (encode (.opEnterInitBlocking .can1))]
      [[], [], [], [], [], [.modeFsm .can1]])) = some (true, true, .none) ∧
    between (stepsFrom 7 (scheduled [.code (encode (.opEnterInitBlocking .can1))]
      [[], [], [], [], [], [.modeFsm .can1]])) = some (true, false, .flag true) := by decide +kernel

/-- The host goes on with the operation it is in before its next request. -/
theorem test_turns_in_order :
    (see (stepsFrom 3 (scheduled [.code (encode (.opEnterInit .can1)), .code (encode (.opIsSleep .can1))] []))
      fun s => (s.can1.mcr.inrq, s.program.length, s.result)) = some (true, 0, .flag true) := by decide +kernel

theorem witness_OperationsAreTheirHostSteps :
    (∀ a l g, (scheduled [.code (encode (.opEnterInit .can1))] []).gaps ≠ (a :: l) :: g) ∧
    (after (step (scheduled [.code (encode (.opEnterInit .can1))] []))).isSome = true ∧
    (after (stepsFrom 2 (scheduled [.code (encode (.opEnterInit .can1))] []))).isSome = true ∧
    (∀ c rest, (scheduled [.code (encode (.opEnterInit .can1))] []).program ≠ .atOnce c :: rest) ∧
    decode (encode (.opEnterInit .can1)) = .ok (.opEnterInit .can1) ∧
    (scheduled [.code (encode (.opEnterInit .can1))] [[], []]).call = none ∧
    (scheduled [.code (encode (.opEnterInit .can1))] [[], []]).program = .code (encode (.opEnterInit .can1)) :: [] ∧
    (scheduled [.code (encode (.opEnterInit .can1))] [[], []]).gaps = [] :: [[]] := by
  refine ⟨fun a l g h => ?_, ?_, ?_, fun c rest h => ?_, ?_, ?_, ?_, ?_⟩
  · cases h
  · decide +kernel
  · decide +kernel
  · cases h
  all_goals decide +kernel

theorem witness_ResetRestoresPowerUp :
    hasInst State.reset.params .can1 = true ∧ hasInst State.reset.params .can2 = true ∧
    filterOwner State.reset.params = .can1 ∧ filterOwner State.reset.params ≠ .can2 := by decide +kernel

theorem witness_ResetAssertedStopsEverything :
    hasInst conv .can1 = true ∧
    ((with1 { inMode .normal with resetAsserted := true }).can .can1).resetAsserted = true ∧
    (AgentStep.modeFsm .can1).inst = .can1 := by decide +kernel

theorem witness_McrAndMsrWrites :
    accessible State.reset .can1 .mcr = true ∧ (0xFFFF7FFF : Word).getLsbD 15 = false ∧
    (0x00008000 : Word).getLsbD 15 = true := by decide +kernel

/-- Every case of the request table, at some state. -/
theorem witness_ModeFsmFollowsTheRequestTable :
    hasInst conv .can1 = true ∧
    (∀ m ∈ [Mode.init, .normal, .sleep], ∀ inrq ∈ [true, false], ∀ sleep ∈ [true, false],
      let c := (with1 { inMode m with mcr := { Mcr.atReset with inrq, sleep } }).can .can1
      c.resetAsserted = false ∧ c.mode = m ∧ c.mcr.inrq = inrq ∧ c.mcr.sleep = sleep) ∧
    ((with1 { inMode .normal with resetAsserted := true }).can .can1).resetAsserted = true := by decide +kernel

theorem witness_BlockingModeCallsPollTheMode :
    accessible State.reset .can1 .mcr = true ∧ 0 < State.reset.params.pollBound ∧ State.reset.gaps = [] ∧
    accessible (machine { conv with pollBound := 0 } (inMode .init) (bank0 true)) .can1 .mcr = true := by decide +kernel

/-- In Init mode with the request already set, one read of MSR sees the acknowledge. -/
theorem witness_EnterInitSuccessIsStable :
    (see (exec (.opEnterInitBlocking .can1) (with1 (inMode .init))) fun s => s.result) = some (.flag true) := by
  decide +kernel

theorem witness_ModeMovesOnlyByFsmOrReset :
    (see (exec (.opEnterInit .can1) State.reset) fun s => s.can1.mcr.inrq) = some true ∧ State.reset.gaps = [] ∧
    Instr.opEnterInit .can1 ≠ .opReset .can1 ∧ AgentStep.wakeUp .can1 ≠ .modeFsm .can1 ∧
    AgentStep.modeFsm .can2 ≠ .modeFsm .can1 := by decide +kernel

theorem witness_BtrReadAndWrite :
    accessible (with1 (inMode .init)) .can1 .btr = true ∧ ((with1 (inMode .init)).can .can1).mode = .init ∧
    accessible State.reset .can1 .btr = true ∧ (State.reset.can .can1).mode ≠ .init := by decide +kernel

theorem witness_ComputeTimingFollowsTheDescent : (0 : Nat) < 500000 ∧ Descent (36000000 / 36000000) 255 1 1
    { ts1 := 0, ts2 := 0, brp := 0, sjw := 0 } :=
  ⟨by decide, .earlyStuck 1 (by decide) (by decide)⟩

theorem witness_EffectiveBitrateInvertsTheCalculator :
    500000 ∣ 36000000 ∧ computeTiming 500000 204 36000000 ≠ { ts1 := 0, ts2 := 0, brp := 0, sjw := 0 } ∧
    7 ∣ 49 ∧ computeTiming 7 128 49 ≠ { ts1 := 0, ts2 := 0, brp := 0, sjw := 0 } := by decide +kernel

/-- Whether a timing is in range. -/
def timingInRange (t : Timing) : Prop :=
  (1 ≤ t.ts1 ∧ t.ts1 ≤ 16) ∧ (1 ≤ t.ts2 ∧ t.ts2 ≤ 8) ∧ (1 ≤ t.brp ∧ t.brp ≤ 1024) ∧ (1 ≤ t.sjw ∧ t.sjw ≤ 4)

theorem witness_ApplyTimingReplacesTheFourFields :
    timingInRange ⟨16, 8, 1024, 4⟩ ∧ timingInRange ⟨1, 1, 1, 1⟩ ∧ ¬timingInRange ⟨17, 8, 1024, 4⟩ ∧
    ¬timingInRange ⟨16, 8, 1024, 0⟩ ∧ accessible (with1 (inMode .init)) .can1 .btr = true ∧
    ((afterGap ((with1 (inMode .init)).takeDraws 1)).can .can1).mode = .init ∧
    accessible (with1 (inMode .normal)) .can1 .btr = true ∧
    ((afterGap ((with1 (inMode .normal)).takeDraws 1)).can .can1).mode ≠ .init := by
  unfold timingInRange
  decide +kernel

theorem witness_FilterRegistersReadTheirBanks :
    accessible State.reset .can1 .fmr = true ∧ State.reset.params.nbanks = .banks28 ∧
    accessible (part conv) .can1 .fmr = true ∧ (part conv).params.nbanks = .banks14 ∧
    (27 : Fin 28).val < State.reset.params.nbanks.toNat ∧ (13 : Fin 28).val < (part conv).params.nbanks.toNat := by
  decide +kernel

theorem witness_FmrWriteHoldsOrReleasesTheLatch :
    accessible (part dual) .can1 .fmr = true ∧ (part dual).params.nbanks = .banks28 ∧
    (part dual).filter.finit = true ∧ (part conv).params.nbanks = .banks14 ∧
    (0x00000E01 : Word).extractLsb' 8 6 = (part dual).filter.can2sb ∧
    (0x00001C01 : Word).extractLsb' 8 6 ≠ (part dual).filter.can2sb ∧
    ((0x00001C01 : Word).extractLsb' 8 6).toNat = 28 ∧ 28 < ((0x00001D01 : Word).extractLsb' 8 6).toNat ∧
    accessible (machine dual (inMode .normal) (bank0 false)) .can1 .fmr = true ∧
    (machine dual (inMode .normal) (bank0 false)).filter.finit = false := by decide +kernel

theorem witness_BankVectorWritesNeedTheLatch :
    accessible (part conv) .can1 .fmr = true ∧ (part conv).filter.finit = true ∧
    accessible (machine conv (inMode .normal) (bank0 false)) .can1 .fmr = true ∧
    (machine conv (inMode .normal) (bank0 false)).filter.finit = false := by decide +kernel

theorem witness_BankWordWritesStoreOneWord :
    accessible (part dual) .can1 (.fr 0 .r1) = true ∧ accessible (part dual) .can1 (.fr 27 .r2) = true ∧
    (part dual).filter.finit = true ∧ ((27, WordIx.r2) : Fin 28 × WordIx) ≠ (27, .r1) ∧
    accessible (machine conv (inMode .normal) (bank0 false)) .can1 (.fr 13 .r2) = true := by decide +kernel

theorem witness_ConfigureFilterRoundTrip :
    accessible State.reset .can1 .fmr = true ∧ (27 : Fin 28).val < State.reset.params.nbanks.toNat ∧
    accessible (part conv) .can1 .fmr = true ∧ (13 : Fin 28).val < (part conv).params.nbanks.toNat ∧
    State.reset.gaps = [] := by decide +kernel

theorem witness_FilterHelpersPackTheirArguments :
    accessible State.reset .can1 .fmr = true ∧ 27 < State.reset.params.nbanks.toNat ∧ (1 : Nat) < 2 ∧
    accessible (part conv) .can1 .fmr = true ∧ 13 < (part conv).params.nbanks.toNat ∧ (0 : Nat) < 2 := by decide +kernel

theorem witness_FilterOperationsCheckTheirArguments :
    State.reset.params.nbanks.toNat ≤ 28 ∧ (part conv).params.nbanks.toNat ≤ 14 ∧
    27 < State.reset.params.nbanks.toNat ∧ (2 : Nat) ≤ 2 := by decide +kernel

theorem witness_FiltersCompareTheirBits :
    filterMatches conv true false ⟨0x24600000, 0xFFFFFFFE⟩ 0 (stdFrame 0x123 false) = true ∧
    filterMatches conv true true ⟨0, 0x24600000⟩ 1 (stdFrame 0x123 false) = true ∧
    filterMatches conv false false ⟨0xFFE02460, 0⟩ 0 (stdFrame 0x123 false) = true ∧
    filterMatches conv false true ⟨0, 0x24600000⟩ 3 (stdFrame 0x123 false) = true ∧
    filterMatches conv false true ⟨0, 0x24600000⟩ 4 (stdFrame 0x123 false) = false := by decide +kernel

theorem witness_AcceptanceTakesTheLeastKey :
    (.f1, 2) ∈ accept conv (fourBanks true) .can1 (stdFrame 0x123 false) ∧
    serves dual (bank0 false) 13 .can1 = true ∧ serves dual (bank0 false) 14 .can2 = true ∧
    serves conv (bank0 false) 13 .can1 = true := by decide +kernel

theorem witness_IdentifierWordsDecodeBack :
    (stdFrame 0x7FF true).id = .standard 0x7FF ∧ (extFrame 0x1FFFFFFF true).id = .extended 0x1FFFFFFF := by decide +kernel

theorem witness_ReceiveStepQueuesTheWinnersEntry :
    hasInst conv .can1 = true ∧
    (let c := (listening (inMode .normal)).can .can1
     c.resetAsserted = false ∧ c.mode = .normal ∧ c.esr.boff = false ∧ c.btr.lbkm = false) ∧
    (listening (inMode .normal)).filter.finit = false ∧
    accept conv (listening (inMode .normal)).filter .can1 (stdFrame 0x123 false) ≠ [] ∧
    accept conv (bank0 false) .can1 (stdFrame 0x123 false) = [] ∧ (with1 (inMode .normal)).filter.finit = true ∧
    ((busOff false).can .can1).esr.boff = true := by decide +kernel

theorem witness_EnqueueKeepsDepthThree :
    (⟨[], false, false⟩ : Fifo).q.length < 3 ∧
    (⟨[entryWith 1, entryWith 2], false, false⟩ : Fifo).q.length = 2 ∧ 3 ≤ fifoABC.q.length ∧ fifoABC.q.length ≤ 3 := by
  decide +kernel

theorem witness_FifoStatusReadAndWrite :
    accessible (withFifo fifoABC) .can1 (.rfr .f0) = true ∧ (((withFifo fifoABC).can .can1).fifo .f0).q.length = 3 ∧
    (((withFifo fifoABC).can .can1).fifo .f1).q.length = 0 := by decide +kernel

theorem witness_OutputMailboxShowsTheHead :
    accessible (withFifo headV8) .can1 (.rir .f0) = true ∧
    (((withFifo headV8).can .can1).fifo .f0).q = entryWith 0x48D159E3 :: [] ∧
    (((withFifo headV8).can .can1).fifo .f1).q = [] := by decide +kernel

theorem witness_OutputMailboxWritesAreIgnored :
    accessible (withFifo headV8) .can1 (.rir .f0) = true ∧ accessible State.reset .can2 (.rir .f1) = true := by
  decide +kernel

theorem witness_ReceiveDecodesTheHeadEntry :
    (2 : Nat) ≤ 2 ∧ accessible (withFifo fifoABC) .can1 (.rir .f0) = true ∧
    (((withFifo fifoABC).can .can1).fifo .f0).q = entryWith 1 :: [entryWith 2, entryWith 3] ∧
    [entryWith 2, entryWith 3].length ≤ 2 ∧ (withFifo fifoABC).gaps = [] := by decide +kernel

theorem witness_ReleaseFifoDropsTheHead :
    (2 : Nat) ≤ 2 ∧ accessible (withFifo fifoABC) .can1 (.rfr .f0) = true ∧
    (((withFifo fifoABC).can .can1).fifo .f0).q.length ≤ 3 ∧
    (((withFifo fifoABC).can .can1).fifo .f1).q.length ≤ 3 := by decide +kernel

theorem witness_MailboxRegistersWrite :
    accessible (full false) .can1 (.tir .m2) = true ∧ (((full false).can .can1).mb .m2).pending = false ∧
    accessible (full false) .can1 (.tir .m0) = true ∧ (((full false).can .can1).mb .m0).pending = true ∧
    (0xFFFFFFFE : Word).getLsbD 0 = false ∧ (1 : Word).getLsbD 0 = true := by decide +kernel

theorem witness_MailboxScanIsFirstFit :
    accessible (full true) .can1 .tsr = true ∧
    (∀ x ∈ [MbIx.m0, .m1, .m2], (((full true).can .can1).mb x).pending = true) ∧
    ((full true).can .can1).lowestEmpty = none ∧ ((full false).can .can1).lowestEmpty = some .m2 := by decide +kernel

theorem witness_TransmitFillsTheFirstEmptyMailbox :
    accessible State.reset .can1 .tsr = true ∧ (State.reset.can .can1).lowestEmpty = some .m0 ∧
    ((sending (inMode .normal) noFrame).can .can1).lowestEmpty = some .m1 ∧
    ((full false).can .can1).lowestEmpty = some .m2 ∧ min 0 8 ≤ ([] : List Byte).length ∧
    min 8 8 ≤ (List.replicate 8 (0 : Byte)).length ∧ min 255 8 ≤ (List.replicate 8 (0 : Byte)).length ∧
    State.reset.gaps = [] := by decide +kernel

/-- The enabling condition of a transmission attempt. -/
def attemptEnabled (s : State) (x : MbIx) : Prop :=
  s.can1.resetAsserted = false ∧ s.can1.mode = .normal ∧ s.can1.esr.boff = false ∧ (s.can1.mb x).pending = true ∧
    ¬(s.can1.btr.silm = true ∧ s.can1.btr.lbkm = false)

theorem witness_TransmissionAttemptOutcomes :
    hasInst conv .can1 = true ∧ attemptEnabled (sending (inMode .normal) noFrame) .m0 ∧
    attemptEnabled (sending { inMode .normal with btr := btrAt true true } noFrame) .m0 ∧
    ¬attemptEnabled (sending (inMode .normal) noFrame) .m1 ∧
    ¬attemptEnabled (sending { inMode .normal with btr := btrAt false true } noFrame) .m0 ∧
    ¬attemptEnabled (sending (inMode .init) noFrame) .m0 := by
  unfold attemptEnabled
  decide +kernel

theorem witness_AbortEmptiesThePendingMailbox :
    hasInst conv .can1 = true ∧
    (let s := sending (inMode .sleep) { noFrame with abrq := true }
     s.can1.resetAsserted = false ∧ (s.can1.mb .m0).pending = true ∧ (s.can1.mb .m0).abrq = true) ∧
    ((sending (inMode .sleep) noFrame).can1.mb .m0).abrq = false := by decide +kernel

theorem witness_FramesLeaveOnlyByTransmission :
    (see (exec (.opTransmit .can1 0x123 false false 0 []) State.reset) fun s => s.busOut) = some [] ∧
    State.reset.gaps = [] ∧
    (see (step { sending (inMode .normal) noFrame with
      gaps := [[.txAttempt .can1 .m0 0 0 0 (.success true true noDraws)]] }) fun s => s.busOut.length) = some 1 := by
  decide +kernel

theorem witness_AgentsActOnTheirOwnInstance : Inst.can2 ≠ (AgentStep.wakeUp .can1).inst := by decide

theorem witness_ErrorEventsSetTheStatus :
    hasInst conv .can1 = true ∧ (afterG1.can .can1).resetAsserted = false ∧ (afterG1.can .can1).mode = .normal ∧
    ((with1 (inMode .sleep)).can .can1).mode ≠ .normal := by decide +kernel

theorem witness_WakeUpAndBusOffRecovery :
    hasInst conv .can1 = true ∧
    (let c := (busOff true).can .can1
     c.resetAsserted = false ∧ c.esr.boff = true ∧ c.mode = .normal ∧ (c.mcr.abom = true ∨ c.boffInitSeen = true)) ∧
    (let c := (busOff false).can .can1
     ¬(c.mcr.abom = true ∨ c.boffInitSeen = true)) ∧
    ((with1 (inMode .sleep)).can .can1).mode = .sleep ∧ ((with1 (inMode .normal)).can .can1).mode ≠ .sleep := by
  decide +kernel

/-- A good state that steps: the host reads a register, and an agent acts. -/
theorem witness_StepKeepsGoodStates :
    State.reset.wf = true ∧ (after (step (State.reset.withFetchWord 16 0x000))).isSome = true ∧
    (sending (inMode .normal) noFrame).wf = true ∧
    (after (step { sending (inMode .normal) noFrame with gaps := [[.modeFsm .can1]] })).isSome = true := by
  decide +kernel

end Sys2Proof.Tests
end

/-! PROOFS. The scope of the model (00_scope.md R6, R9): a step is one turn of the interleaving, the host's turn is at
most one host step, and the turns of an operation add up to `exec`. -/

namespace Sys2Proof.Machine

/-! ## Whose turn a step is -/

theorem step_of_agent {s : State} {a : AgentStep} {l : List AgentStep} {g : List (List AgentStep)}
    (h : s.gaps = (a :: l) :: g) : step s = .next (agentStep a { s with gaps := l :: g }) := by
  simp only [step, nextStep, h]

theorem step_of_ended {s : State} (h : s.gaps = []) : step s = hostTurn s := by
  simp only [step, nextStep, h]

theorem step_of_emptyGap {s : State} {g : List (List AgentStep)} (h : s.gaps = [] :: g) :
    step s = hostTurn { s with gaps := g } := by
  simp only [step, nextStep, h]

/-! ## What the host does in its turn -/

theorem hostTurn_of_call {s : State} {c : Call} (h : s.call = some c) : hostTurn s = continueCall c s := by
  simp only [hostTurn, h]

theorem hostTurn_of_idle {s : State} (hc : s.call = none) (hp : s.program = []) : hostTurn s = .next s := by
  simp only [hostTurn, hc, hp]

theorem hostTurn_of_request {s : State} {r : HostRequest} {rest : List HostRequest} (hc : s.call = none)
    (hp : s.program = r :: rest) : hostTurn s = runRequest r { s with program := rest } := by
  simp only [hostTurn, hc, hp]

theorem runRequest_atOnce {c : HostCode} {i : Instr} (hd : decode c = .ok i) (s : State) :
    runRequest (.atOnce c) s = exec i s := by
  simp only [runRequest, runDecoded, hd]

theorem runRequest_code {c : HostCode} {i : Instr} (hd : decode c = .ok i) (s : State) :
    runRequest (.code c) s = issue i s := by
  simp only [runRequest, issueDecoded, hd]

theorem issue_of_single {i : Instr} (h : callProg i = none) (s : State) : issue i s = exec i s := by
  simp only [issue, h]

theorem issue_of_call {i : Instr} {q : TurnProg Result} (h : callProg i = some q) (s : State) :
    issue i s = turn i [] q s := by
  simp only [issue, h]

/-- A request taken at once, or one of at most one host step, is `exec` of its instruction in the host's turn. -/
theorem hostTurn_runs_decoded {s : State} {c : HostCode} {rest : List HostRequest} {i : Instr}
    (hd : decode c = .ok i) (hc : s.call = none)
    (hp : s.program = .atOnce c :: rest ∨ (s.program = .code c :: rest ∧ callProg i = none)) :
    hostTurn s = exec i { s with program := rest } := by
  rcases hp with hp | ⟨hp, hi⟩
  · rw [hostTurn_of_request hc hp, runRequest_atOnce hd]
  · rw [hostTurn_of_request hc hp, runRequest_code hd, issue_of_single hi]

theorem decode_tableCode {nbits w : Nat} {i : Instr} (h : decodeTableWord nbits w = some i) :
    decode (tableCode nbits w) = .ok i := by
  unfold decodeTableWord at h
  split at h
  · cases h
    assumption
  · cases h

/-- Settles O9: the cases of `nextStep`, and of `hostTurn` for a host in the middle of no operation. -/
theorem stepRunsTheDecodedInstruction : Obligations.StepRunsTheDecodedInstruction := by
  refine ⟨fun s c rest i hd hc hp => ⟨fun hg => ?_, fun g hg => ?_⟩, fun s a l g hg => step_of_agent hg,
    fun s nbits w i h => ?_⟩
  · rw [step_of_ended hg, hostTurn_runs_decoded hd hc hp]
  · rw [step_of_emptyGap hg, hostTurn_runs_decoded (s := { s with gaps := g }) hd hc hp]
  · rw [step_of_emptyGap (s := s.withFetchWord nbits w) (g := s.gaps) rfl,
      hostTurn_runs_decoded (rest := s.program) (decode_tableCode h) rfl (.inl rfl)]
    rfl

/-! ## The counted polling is the loop (log 12) -/

theorem pollLoop_succ {s : State} {i : Inst} (want : Bool) (n : Nat) (h : accessible s i .msr = true) :
    pollLoop i want (n + 1) s =
      if ((afterGap s).can i).inak = want then .ok (true, (afterGap s).takeDraws 1)
      else pollLoop i want n ((afterGap s).takeDraws 1) := by
  rw [pollLoop, Prog.bind_ok (gap_eq s), Prog.bind_ok (regRead_ok (by simpa using h))]
  simp only [readRule, readMsr_bit0, afterGap_draws]
  split <;> rfl

/-- With no agent step to come, reads that do not see the mode wanted take one draw each and change nothing else. -/
theorem pollLoop_of_ended {i : Inst} {want : Bool} (n : Nat) {s : State} (ha : accessible s i .msr = true)
    (hg : s.gaps = []) (hm : (s.can i).inak ≠ want) : pollLoop i want n s = .ok (false, s.takeDraws n) := by
  induction n generalizing s with
  | zero => rfl
  | succ n ih =>
    rw [pollLoop_succ want n ha, afterGap_of_ended s hg, if_neg hm,
      ih (s := s.takeDraws 1) (by simpa using ha) hg (by simpa using hm), State.takeDraws_takeDraws, Nat.add_comm]

theorem pollInak_eq_pollLoop (i : Inst) (want : Bool) (n : Nat) (s : State) :
    pollInak i want n s = pollLoop i want n s := by
  induction n generalizing s with
  | zero => rfl
  | succ n ih =>
    by_cases ha : accessible s i .msr = true
    · rw [pollInak_succ want n ha, pollLoop_succ want n ha]
      by_cases hm : ((afterGap s).can i).inak = want
      · rw [if_pos hm, if_pos hm]
      by_cases hg : s.gaps = []
      · have hl := pollLoop_of_ended n (s := (afterGap s).takeDraws 1) (by simpa using ha) (by simp [hg])
          (by simpa using hm)
        rw [if_neg hm, if_pos hg, if_neg hm, hl, State.takeDraws_takeDraws]
      · rw [if_neg hm, if_neg hg, if_neg hm, ih]
    · cases hr : regRead i .msr (afterGap s) with
      | ok a => exact absurd (by simpa using (regRead_cases hr).1) ha
      | error e =>
        rw [pollInak, pollLoop, Prog.bind_ok (a := s.gaps.isEmpty) (s' := s) rfl, Prog.bind_ok (gap_eq s),
          Prog.bind_ok (gap_eq s), Prog.bind_stop hr, Prog.bind_stop hr]

/-! ## An instruction of no operation is at most one host step -/

theorem regRead_keeps_block (s : State) (i : Inst) (r : Reg) : (regRead i r).Keeps (sameBlock s) := by
  constructor
  intro m w m' hm h
  obtain ⟨_, _, rfl⟩ := regRead_cases h
  exact hm.takeDraws 0 1

/-- A program that keeps the block, as an instruction. -/
theorem finish_block {p : Prog Result} {s t : State} (hp : p.Keeps (sameBlock s)) (h : finish p s = .next t) :
    sameBlock s t := by
  obtain ⟨r, s', hs, rfl⟩ := finish_next h
  exact hp.kept s r s' (sameBlock_refl s) hs

/-- A host step that answers nothing, as an instruction or a request. -/
theorem runUnit_one (x : HostStep) {p : Prog Unit} (hx : x.perform atOnce = answersZero p) {s t : State}
    (h : runUnit p s = .next t) : OneStep s t := by
  obtain ⟨r, s', hs, rfl⟩ := finish_next h
  obtain ⟨_, m, hm, hr⟩ := Prog.bind_cases hs
  cases hr
  have hx' : x.perform atOnce s = .ok (.ofWord 0, s') := by
    rw [hx]
    exact Prog.bind_ok hm
  exact (perform_one hx').right (sameBlock_refl s')

theorem readInstr_one {i : Inst} {r : Reg} {s t : State} (h : readInstr i r s = .next t) : OneStep s t :=
  .inl (finish_block ((regRead_keeps_block s i r).bind fun _ => .pure _) h)

theorem writeInstr_one {i : Inst} {r : Reg} {v : Word} {s t : State} (h : writeInstr i r v s = .next t) :
    OneStep s t :=
  runUnit_one (.write i r (.ofWord v)) rfl h

/-- An operation that asks one register for a Boolean. -/
theorem flagRead_one {i : Inst} {r : Reg} {f : BusWord → Bool} {s t : State}
    (h : runFlag (do let v ← regRead i r; pure (f v)) s = .next t) : OneStep s t :=
  .inl (finish_block (((regRead_keeps_block s i r).bind fun _ => .pure _).bind fun _ => .pure _) h)

/-- Every instruction that `callProg` does not take apart is one register access, or no host step at all (R254, R258).
The last case is the register accesses, each of them a read or a write. -/
theorem exec_one {i : Instr} {s t : State} (hi : callProg i = none) (h : exec i s = .next t) : OneStep s t := by
  cases i with
  | opReset | opEnterInit | opLeaveInit | opEnterSleep | opLeaveSleep | opEnterInitBlocking | opLeaveInitBlocking
  | opApplyTiming | opConfigureFilter | opFilterIdMask16 | opFilterIdMask32 | opFilterIdList16 | opFilterIdList32
  | opTransmit | opReceive | opReleaseFifo => cases hi
  | opIsInit j | opIsSleep j => exact flagRead_one h
  | opGetEmptyMailbox j | opAvailableMailbox j =>
    exact .inl (finish_block ((regRead_keeps_block s j .tsr).bind fun _ => .pure _) h)
  | opComputeTiming | opGetEffectiveBitrate => exact .inl (finish_block (.pure _) h)
  | _ => first | exact readInstr_one h | exact writeInstr_one h

theorem issue_one {i : Instr} {s t : State} (h : issue i s = .next t) : OneStep s t := by
  cases hq : callProg i with
  | none => exact exec_one hq (by rwa [issue_of_single hq] at h)
  | some q => exact turn_one pollInak_eq_pollLoop hq (by rwa [issue_of_call hq] at h)

/-! ## The host's turn is at most one host step -/

/-- The instruction of an access is no operation of several host steps. -/
theorem callProg_of_access {a : Access} {i : Instr} (h : a.decode = .ok i) : callProg i = none := by
  unfold Access.decode at h
  split at h
  · split at h
    · cases h
    · split at h <;> cases h
      · exact callProg_rd ..
      · exact callProg_wr ..
  · cases h

theorem stoppedAccess_ne_next (s : State) (a : Access) (f : Fault) (t : State) : stoppedAccess s a f ≠ .next t := by
  unfold stoppedAccess
  split <;> simp

theorem decodeFailure_ne_next (e : DecodeError) (s t : State) : decodeFailure e s ≠ .next t := by
  cases e <;> simp [decodeFailure, stoppedAccess_ne_next]

theorem runRequest_one {r : HostRequest} (hr : ∀ c, r ≠ .atOnce c) {s t : State} (h : runRequest r s = .next t) :
    OneStep s t := by
  cases r with
  | code c =>
    cases hd : decode c with
    | ok i => exact issue_one (by rwa [runRequest_code hd] at h)
    | error e =>
      simp only [runRequest, issueDecoded, hd] at h
      exact absurd h (decodeFailure_ne_next e s t)
  | atOnce c => exact absurd rfl (hr c)
  | bus addr width write =>
    simp only [runRequest] at h
    split at h
    · next j off _ =>
      cases hd : (busAccess j off width write).decode with
      | ok i => exact exec_one (callProg_of_access hd) (by simpa only [runDecoded, hd] using h)
      | error e =>
        simp only [runDecoded, hd] at h
        exact absurd h (decodeFailure_ne_next e s t)
    · cases h
  | resetAssert i => exact runUnit_one (.assertReset i) rfl h
  | resetClear i => exact runUnit_one (.clearReset i) rfl h

theorem continueCall_one {c : Call} {s t : State} (h : continueCall c s = .next t) : OneStep s t := by
  unfold continueCall at h
  split at h
  · next q hq => exact turn_one pollInak_eq_pollLoop hq h
  · cases h
    exact .inl (sameBlock_refl s)

theorem hostTurn_one {s t : State} (hr : s.call = none → ∀ c rest, s.program ≠ .atOnce c :: rest)
    (h : hostTurn s = .next t) : OneStep s t := by
  cases hc : s.call with
  | some c => exact continueCall_one (by rwa [hostTurn_of_call hc] at h)
  | none =>
    cases hp : s.program with
    | nil =>
      rw [hostTurn_of_idle hc hp] at h
      cases h
      exact .inl (sameBlock_refl s)
    | cons r rest =>
      have hr' : ∀ c, r ≠ .atOnce c := fun c hrc => hr hc c rest (by rw [hp, hrc])
      rw [hostTurn_of_request hc hp] at h
      exact (runRequest_one hr' h).left (sameBlock_refl s) rfl

/-- A step that is the host's turn, and no request taken at once, is at most one host step. -/
theorem step_one {s t : State} (hg : ∀ a l g, s.gaps ≠ (a :: l) :: g)
    (hr : s.call = none → ∀ c rest, s.program ≠ .atOnce c :: rest) (h : step s = .next t) : OneStep s t := by
  match hs : s.gaps with
  | [] => exact hostTurn_one hr (by rwa [step_of_ended hs] at h)
  | [] :: g =>
    rw [step_of_emptyGap hs] at h
    exact (hostTurn_one (s := { s with gaps := g }) hr h).left (sameBlock_refl s) rfl
  | (a :: l) :: g => exact absurd hs (hg a l g)

/-! ## The turns of an instruction add up to it -/

theorem andThen_no_step (o : Host.Outcome State Fault Refusal) : Outcome.andThen o (stepsFrom 0) = o := by
  cases o <;> rfl

/-- The turn in which an instruction is issued, and the steps after it, reach the outcome of `exec`. -/
theorem issue_reaches_exec (i : Instr) {s : State} (hc : s.call = none) :
    ∃ n, Outcome.andThen (issue i s) (stepsFrom n) = exec i s := by
  cases hq : callProg i with
  | none => exact ⟨0, by rw [andThen_no_step, issue_of_single hq]⟩
  | some q =>
    obtain ⟨tree, hstarts, rfl, hexec⟩ := callProg_tree pollInak_eq_pollLoop hq
    obtain ⟨n, hn⟩ := issue_adds_up i _ hq s.params tree hstarts s rfl fun _ _ _ => rfl
    have hcall : s.calling none = s := by rw [State.calling, ← hc]
    exact ⟨n, by rw [issue_of_call hq, turn_eq, hn, hcall, hexec]⟩

theorem hostTurn_reaches_exec {s : State} {c : HostCode} {rest : List HostRequest} {i : Instr}
    (hd : decode c = .ok i) (hc : s.call = none) (hp : s.program = .code c :: rest) :
    ∃ n, Outcome.andThen (hostTurn s) (stepsFrom n) = exec i { s with program := rest } := by
  rw [hostTurn_of_request hc hp, runRequest_code hd]
  exact issue_reaches_exec i hc

/-- Settles O21: one turn by the tree of host steps behind each operation, their sum by induction over that tree, and
the polling by induction on the reads left. -/
theorem operationsAreTheirHostSteps : Obligations.OperationsAreTheirHostSteps := by
  refine ⟨fun s t hg hr h => step_one hg hr h, fun s c rest i hd hc hp => ⟨fun hg => ?_, fun g hg => ?_⟩,
    pollInak_eq_pollLoop⟩
  · obtain ⟨n, hn⟩ := hostTurn_reaches_exec hd hc hp
    exact ⟨n + 1, n.succ_pos, by rw [stepsFrom_succ, step_of_ended hg, hn]⟩
  · obtain ⟨n, hn⟩ := hostTurn_reaches_exec (s := { s with gaps := g }) hd hc hp
    exact ⟨n + 1, n.succ_pos, by rw [stepsFrom_succ, step_of_emptyGap hg, hn]⟩

end Sys2Proof.Machine

/-! PROOFS. What every step keeps (10_state.md R33, R58): a register write and an agent's step, but for `ModeFsm`, move
no mode and keep a good controller good; so the mode moves only by `ModeFsm` or a reset, and every step keeps a good
state good. -/

namespace Sys2Proof.Machine

/-! ## Good parts of a controller -/

theorem Mailbox.wf_iff (m : Mailbox) : m.wf = true ↔
    (m.abrq = true → m.pending = true) ∧ (m.pending = true → m.rqcp = false ∧ m.txok = false) := by
  cases ha : m.abrq <;> cases hp : m.pending <;> simp [Mailbox.wf, ha, hp]

/-- An empty mailbox without an abort request is good, whatever its status bits. -/
theorem Mailbox.wf_of_empty {m : Mailbox} (ha : m.abrq = false) (hp : m.pending = false) : m.wf = true := by
  simp [Mailbox.wf, ha, hp]

theorem Mailbox.writeStatus_wf {m : Mailbox} (v : BusWord) (x : Nat) (h : m.wf = true) :
    (m.writeStatus v x).wf = true := by
  rw [wf_iff] at h ⊢
  obtain ⟨hab, hst⟩ := h
  constructor
  · intro hw
    simp only [writeStatus, Bool.or_eq_true, Bool.and_eq_true] at hw
    exact hw.elim hab And.right
  · intro hp
    obtain ⟨hr, ht⟩ := hst hp
    simp [writeStatus, hr, ht]

theorem Mailbox.request_wf (m : Mailbox) : m.request.wf = true := by
  simp [Mailbox.wf, Mailbox.request]

/-- A failed attempt (R356) keeps a good mailbox good: it is pending still, or has completed. -/
theorem Mailbox.failed_wf {m : Mailbox} (nart : Bool) (h : m.wf = true) : (m.failed nart).wf = true := by
  cases nart
  · exact h
  · exact wf_of_empty rfl rfl

/-- Clearing TXOK keeps a good mailbox good, whatever becomes of the fields no flag depends on. -/
theorem Mailbox.clearTxok_wf {m : Mailbox} (alst terr : Bool) (stamp : Half) (h : m.wf = true) :
    Mailbox.wf { m with time := stamp, alst := alst, terr := terr, txok := false } = true := by
  rw [wf_iff] at h ⊢
  obtain ⟨hab, hst⟩ := h
  exact ⟨hab, fun hp => ⟨(hst hp).1, rfl⟩⟩

/-- A write to a mailbox register that is let through (R353 to R355) leaves what its rule says, and the mailbox was
empty. -/
theorem Mailbox.ifEmpty_cases {a : Access} {m m' n : Mailbox} (h : m.ifEmpty a m' = .ok n) :
    m.pending = false ∧ n = m' := by
  unfold Mailbox.ifEmpty at h
  split at h
  · cases h
  · next hp =>
    cases h
    exact ⟨by simpa using hp, rfl⟩

theorem Mailbox.writeTir_wf {a : Access} {m n : Mailbox} {v : BusWord} (h : writeTir a m v = .ok n)
    (hm : m.wf = true) : n.wf = true := by
  obtain ⟨_, rfl⟩ := Mailbox.ifEmpty_cases h
  split
  · exact request_wf _
  · exact hm

theorem Fifo.wf_iff (f : Fifo) : f.wf = true ↔ f.q.length ≤ 3 := decide_eq_true_iff

theorem Fifo.writeRfr_wf {f : Fifo} (v : BusWord) (h : f.wf = true) : (writeRfr f v).wf = true := by
  rw [wf_iff] at h ⊢
  simp only [writeRfr]
  split
  · rw [List.length_tail]
    omega
  · exact h

/-- A new entry (R405) never takes a FIFO past its depth. -/
theorem Fifo.enqueue_wf {f : Fifo} (locked : Bool) (e : Entry) (h : f.wf = true) : (f.enqueue locked e).wf = true := by
  rw [wf_iff] at h ⊢
  unfold Fifo.enqueue
  split
  · next hroom =>
    simp only [Config.fifoDepth] at hroom
    simp only [List.length_append, List.length_singleton]
    omega
  · split
    · exact h
    · simp only [List.length_append, List.length_take, List.length_singleton, Config.fifoDepth]
      omega

theorem Esr.afterEvent_wf (e : Esr) (code : Option ErrorCode) (d : ErrorDraws) : (e.afterEvent code d).wf = true := by
  simp [Esr.wf, Esr.afterEvent]

theorem Controller.modeWf_iff (c : Controller) : c.modeWf = true ↔
    (c.slaki = true → c.mode = .sleep) ∧ (c.boffInitSeen = true → c.esr.boff = true) := by
  cases hs : c.slaki <;> cases hb : c.boffInitSeen <;> simp [Controller.modeWf, hs, hb]

theorem Controller.wf_iff (c : Controller) : c.wf = true ↔
    (∀ x, (c.mb x).wf = true) ∧ (∀ x, (c.fifo x).wf = true) ∧ c.esr.wf = true ∧ c.modeWf = true := by
  have hmb : (∀ x, (c.mb x).wf = true) ↔ c.mb0.wf = true ∧ c.mb1.wf = true ∧ c.mb2.wf = true :=
    ⟨fun h => ⟨h .m0, h .m1, h .m2⟩, fun ⟨h0, h1, h2⟩ x => by cases x; exacts [h0, h1, h2]⟩
  have hfifo : (∀ x, (c.fifo x).wf = true) ↔ c.fifo0.wf = true ∧ c.fifo1.wf = true :=
    ⟨fun h => ⟨h .f0, h .f1⟩, fun ⟨h0, h1⟩ x => by cases x; exacts [h0, h1]⟩
  rw [hmb, hfifo]
  simp only [Controller.wf, Bool.and_eq_true, and_assoc]

/-- A controller with the mailboxes and FIFOs of a good one is good when its error and mode flags are. -/
theorem Controller.wf_of_same_buffers {c d : Controller} (hc : c.wf = true) (hmb : ∀ x, d.mb x = c.mb x)
    (hfifo : ∀ x, d.fifo x = c.fifo x) (hesr : d.esr.wf = true) (hmode : d.modeWf = true) : d.wf = true := by
  obtain ⟨hmb', hfifo', -, -⟩ := (wf_iff c).1 hc
  exact (wf_iff d).2 ⟨fun x => by rw [hmb x]; exact hmb' x, fun x => by rw [hfifo x]; exact hfifo' x, hesr, hmode⟩

theorem Controller.atReset_wf (n : Nat) : (Controller.atReset n).wf = true := rfl

/-! ## Changes that move no mode -/

/-- From c to d the mode has not moved, and a good controller has stayed good. -/
structure Controller.KeepsModeAndWf (c d : Controller) : Prop where
  mode : d.mode = c.mode
  wf : c.wf = true → d.wf = true

namespace Controller.KeepsModeAndWf
variable {c d e : Controller}

theorem refl (c : Controller) : c.KeepsModeAndWf c := ⟨rfl, id⟩

theorem trans (h : c.KeepsModeAndWf d) (h' : d.KeepsModeAndWf e) : c.KeepsModeAndWf e :=
  ⟨h'.mode.trans h.mode, h'.wf ∘ h.wf⟩

theorem setMb (c : Controller) (x : MbIx) {m : Mailbox} (h : (c.mb x).wf = true → m.wf = true) :
    c.KeepsModeAndWf (c.setMb x m) := by
  refine ⟨setMb_mode c x m, fun hc => ?_⟩
  obtain ⟨hmb, hfifo, hesr, hmode⟩ := (wf_iff c).1 hc
  refine (wf_iff _).2 ⟨fun y => ?_, fun y => by simpa using hfifo y, by simpa using hesr, ?_⟩
  · by_cases hy : y = x
    · rw [hy, mb_setMb_same]
      exact h (hmb x)
    · rw [mb_setMb_other _ _ _ _ hy]
      exact hmb y
  · rw [modeWf_iff] at hmode ⊢
    simpa using hmode

theorem setFifo (c : Controller) (x : FifoIx) {f : Fifo} (h : (c.fifo x).wf = true → f.wf = true) :
    c.KeepsModeAndWf (c.setFifo x f) := by
  refine ⟨setFifo_mode c x f, fun hc => ?_⟩
  obtain ⟨hmb, hfifo, hesr, hmode⟩ := (wf_iff c).1 hc
  refine (wf_iff _).2 ⟨fun y => by simpa using hmb y, fun y => ?_, by simpa using hesr, ?_⟩
  · by_cases hy : y = x
    · rw [hy, fifo_setFifo_same]
      exact h (hfifo x)
    · rw [fifo_setFifo_other _ _ _ _ hy]
      exact hfifo y
  · rw [modeWf_iff] at hmode ⊢
    simpa using hmode

/-- No flag of a good controller depends on LEC. -/
theorem clearLec (c : Controller) : c.KeepsModeAndWf c.clearLec := ⟨rfl, id⟩

theorem assertReset (c : Controller) : c.KeepsModeAndWf { c with resetAsserted := true } := ⟨rfl, id⟩

/-! ### Register writes -/

theorem writeMcr {a : Access} {v : BusWord} (h : Machine.writeMcr a c v = .ok d) : c.KeepsModeAndWf d := by
  unfold Machine.writeMcr at h
  split at h <;> cases h
  exact ⟨rfl, id⟩

theorem writeMsr (c : Controller) (v : BusWord) : c.KeepsModeAndWf (writeMsr c v) := by
  refine ⟨rfl, fun hc => ?_⟩
  obtain ⟨-, -, hesr, hmode⟩ := (wf_iff c).1 hc
  obtain ⟨hslaki, hboff⟩ := (modeWf_iff c).1 hmode
  refine wf_of_same_buffers hc (fun x => by cases x <;> rfl) (fun x => by cases x <;> rfl) hesr ?_
  refine (modeWf_iff _).2 ⟨fun hs => hslaki ?_, hboff⟩
  simp only [Machine.writeMsr, Bool.and_eq_true] at hs
  exact hs.1

theorem writeTsr (c : Controller) (v : BusWord) : c.KeepsModeAndWf (writeTsr c v) := by
  refine ⟨rfl, fun hc => ?_⟩
  obtain ⟨hmb, hfifo, hesr, hmode⟩ := (wf_iff c).1 hc
  refine (wf_iff _).2 ⟨fun x => ?_, fun x => ?_, hesr, hmode⟩
  · cases x with
    | m0 => exact Mailbox.writeStatus_wf v 0 (hmb .m0)
    | m1 => exact Mailbox.writeStatus_wf v 1 (hmb .m1)
    | m2 => exact Mailbox.writeStatus_wf v 2 (hmb .m2)
  · cases x with
    | f0 => exact hfifo .f0
    | f1 => exact hfifo .f1

theorem writeBtr {a : Access} {v : BusWord} (h : Machine.writeBtr a c v = .ok d) : c.KeepsModeAndWf d := by
  unfold Machine.writeBtr at h
  split at h <;> cases h
  exact ⟨rfl, id⟩

/-! ### Agents -/

theorem errorEvent (c : Controller) (code : Option ErrorCode) (d : ErrorDraws) :
    c.KeepsModeAndWf (c.errorEvent code d) := by
  refine ⟨rfl, fun hc => ?_⟩
  obtain ⟨-, -, -, hmode⟩ := (wf_iff c).1 hc
  obtain ⟨hslaki, hboff⟩ := (modeWf_iff c).1 hmode
  refine wf_of_same_buffers hc (by simp) (by simp) (Esr.afterEvent_wf ..) ?_
  exact (modeWf_iff _).2 ⟨hslaki, fun hb => by simp [Controller.errorEvent, Esr.afterEvent, hboff hb]⟩

theorem offer (c : Controller) (p : Params) (fl : FilterBlock) (i : Inst) (f : Frame) (d : RxDraws) :
    c.KeepsModeAndWf (c.offer p fl i f d) := by
  rcases c.offer_cases p fl i f d with h | ⟨x, n, -, h⟩ <;> rw [h]
  · exact clearLec c
  · exact (clearLec c).trans (setFifo _ x (by rw [clearLec_fifo]; exact Fifo.enqueue_wf _ _))

theorem attempt (c : Controller) (p : Params) (fl : FilterBlock) (i : Inst) (x : MbIx) (stamp : Half) (f : Frame)
    (o : TxOutcome) : c.KeepsModeAndWf (c.attempt p fl i x stamp f o) := by
  cases o with
  | success keepAlst keepTerr rx =>
    have hrx : c.KeepsModeAndWf (if c.btr.lbkm then c.offer p fl i f rx else c) := by
      split
      · exact offer c p fl i f rx
      · exact refl c
    exact (hrx.trans (setMb _ x fun _ => Mailbox.wf_of_empty rfl rfl)).trans (clearLec _)
  | arbitrationLost => exact setMb c x fun hm => Mailbox.failed_wf _ (Mailbox.clearTxok_wf _ _ _ hm)
  | error code draws =>
    exact (setMb c x fun hm => Mailbox.failed_wf _ (Mailbox.clearTxok_wf _ _ _ hm)).trans (errorEvent _ _ _)

theorem wake (c : Controller) : c.KeepsModeAndWf c.wake := ⟨rfl, id⟩

/-- Recovery clears BOFF and the request for it together (R465). -/
theorem recoverBusOff (c : Controller) : c.KeepsModeAndWf c.recoverBusOff := by
  refine ⟨rfl, fun hc => ?_⟩
  obtain ⟨-, -, -, hmode⟩ := (wf_iff c).1 hc
  obtain ⟨hslaki, -⟩ := (modeWf_iff c).1 hmode
  refine wf_of_same_buffers hc (fun x => by cases x <;> rfl) (fun x => by cases x <;> rfl) rfl ?_
  exact (modeWf_iff _).2 ⟨hslaki, fun hb => by cases hb⟩

end Controller.KeepsModeAndWf

/-- The mode state machine keeps a good controller good: leaving Sleep clears SLAKI (R207), and the recovery request is
taken only while bus-off (R205). -/
theorem Controller.enterMode_wf {c : Controller} (t : Mode) (hc : c.wf = true) : (c.enterMode t).wf = true := by
  obtain ⟨-, -, hesr, hmode⟩ := (wf_iff c).1 hc
  obtain ⟨hslaki, hboff⟩ := (modeWf_iff c).1 hmode
  have hleave : (if c.mode = .sleep then false else c.slaki) = false := by
    split
    · rfl
    · next hm => exact Bool.eq_false_iff.2 fun hs => hm (hslaki hs)
  have hesr' : (c.enterMode t).esr = c.esr := by cases t <;> rfl
  refine wf_of_same_buffers hc (by simp) (by simp) (by rw [hesr']; exact hesr) ?_
  rw [modeWf_iff, hesr']
  cases t with
  | init =>
    refine ⟨fun hs => absurd (hleave.symm.trans hs) Bool.false_ne_true, fun hb => ?_⟩
    exact ((Bool.or_eq_true_iff).1 hb).elim hboff id
  | sleep => exact ⟨fun _ => rfl, hboff⟩
  | normal => exact ⟨fun hs => absurd (hleave.symm.trans hs) Bool.false_ne_true, hboff⟩

/-! ## Agents' steps -/

theorem AgentStep.perform_keepsModeAndWf {a : AgentStep} (ha : a ≠ .modeFsm a.inst) (s : State) :
    (s.can a.inst).KeepsModeAndWf ((a.perform s).can a.inst) := by
  cases a with
  | modeFsm i => exact absurd rfl ha
  | txAttempt i x stamp b6 b7 o =>
    rw [inst, perform_txAttempt_can]
    exact .attempt ..
  | txAbort i x =>
    rw [inst, perform_txAbort_can]
    exact .setMb _ x fun _ => Mailbox.wf_of_empty rfl rfl
  | rxFrame i f d =>
    rw [inst, perform_rxFrame_can]
    exact .offer ..
  | errorEvent i code d =>
    rw [inst, perform_errorEvent_can]
    exact .errorEvent ..
  | wakeUp i =>
    rw [inst, perform_wakeUp_can]
    exact .wake _
  | busOffRecovery i =>
    rw [inst, perform_busOffRecovery_can]
    exact .recoverBusOff _

/-- Every agent but the controller's own `ModeFsm` leaves its mode alone. -/
theorem agentStep_keepsModeAndWf {a : AgentStep} {j : Inst} (ha : a ≠ .modeFsm j) (s : State) :
    (s.can j).KeepsModeAndWf ((agentStep a s).can j) := by
  by_cases hj : j = a.inst
  · subst hj
    rcases agentStep_cases a s with ⟨-, h⟩ | ⟨-, h⟩ <;> rw [h]
    · exact a.perform_keepsModeAndWf ha s
    · exact .refl _
  · rw [agentStep_can_other a s j hj]
    exact .refl _

theorem agentStep_can_wf (a : AgentStep) (s : State) (j : Inst) (h : (s.can j).wf = true) :
    ((agentStep a s).can j).wf = true := by
  by_cases ha : a = .modeFsm j
  · subst ha
    rcases agentStep_cases (.modeFsm j) s with ⟨-, hs⟩ | ⟨-, hs⟩ <;> rw [hs]
    · rw [perform_modeFsm_can]
      split
      · exact Controller.enterMode_wf _ h
      · exact h
    · exact h
  · exact (agentStep_keepsModeAndWf ha s).wf h

/-! ## A good filter block -/

/-- The bits that a write of a bank vector stores are those of existing banks (R301, R304). -/
theorem vectorWf_bankBits (p : Params) (v : BusWord) : vectorWf p (bankBits p v) = true := by
  have h : bankBits p v &&& ~~~((bankMask p).setWidth 28) = 0 := by
    apply BitVec.eq_of_getLsbD_eq
    intro k hk
    rw [BitVec.getLsbD_and, BitVec.getLsbD_not, BitVec.getLsbD_setWidth, getLsbD_bankMask, getLsbD_bankBits]
    by_cases hb : k < p.nbanks.toNat <;> simp [hk, hb]
  simp [vectorWf, h]

theorem FilterBlock.wf_iff (p : Params) (fl : FilterBlock) : fl.wf p = true ↔
    vectorWf p fl.fbm = true ∧ vectorWf p fl.fsc = true ∧ vectorWf p fl.ffa = true ∧ vectorWf p fl.fact = true ∧
      fl.can2sb.toNat ≤ maxCan2sb := by
  simp only [FilterBlock.wf, Bool.and_eq_true, and_assoc, decide_eq_true_iff]

theorem FilterBlock.ifLatched_cases {a : Access} {fl fl' fl'' : FilterBlock} (h : fl.ifLatched a fl' = .ok fl'') :
    fl.finit = true ∧ fl'' = fl' := by
  unfold FilterBlock.ifLatched at h
  split at h <;> cases h
  exact ⟨‹_›, rfl⟩

theorem FilterBlock.writeFmr_wf {a : Access} {p : Params} {fl fl' : FilterBlock} {v : BusWord}
    (h : writeFmr a p fl v = .ok fl') (hf : fl.wf p = true) : fl'.wf p = true := by
  unfold writeFmr at h
  split at h
  · cases h
    exact hf
  · split at h
    · cases h
      exact hf
    · split at h
      · cases h
      · split at h
        · cases h
        · next hmax =>
          cases h
          obtain ⟨hm, hs, ha, hact, -⟩ := (wf_iff p fl).1 hf
          exact (wf_iff p _).2 ⟨hm, hs, ha, hact, Nat.le_of_not_lt hmax⟩

theorem FilterBlock.atReset_wf (p : Params) (n : Nat) : (FilterBlock.atReset n).wf p = true := by
  have hz : vectorWf p 0 = true := by simp [vectorWf]
  exact (wf_iff p _).2 ⟨hz, hz, hz, hz, by simp [atReset, maxCan2sb]⟩

/-! ## Register writes -/

/-- A mapped answer comes from an answer. -/
theorem Except.map_cases {α β : Type} {f : α → β} {e : Except Stop α} {b : β} (h : e.map f = .ok b) :
    ∃ a, e = .ok a ∧ b = f a := by
  cases e with
  | ok a => exact ⟨a, rfl, (Except.ok.inj h).symm⟩
  | error e => cases h

/-- The write rule changes one controller, moving no mode and keeping it good, or the filter block, keeping it good. -/
theorem writeRule_change {a : Access} {s s' : State} {i : Inst} {v : BusWord} {r : Reg}
    (h : writeRule a s i v r = .ok s') :
    (∃ c, (s.can i).KeepsModeAndWf c ∧ s' = s.setCan i c) ∨
      ∃ fl, (s.filter.wf s.params = true → fl.wf s.params = true) ∧ s' = s.setFilter fl := by
  cases r with
  | mcr =>
    obtain ⟨c, hc, rfl⟩ := Except.map_cases h
    exact .inl ⟨c, .writeMcr hc, rfl⟩
  | btr =>
    obtain ⟨c, hc, rfl⟩ := Except.map_cases h
    exact .inl ⟨c, .writeBtr hc, rfl⟩
  | msr => cases h; exact .inl ⟨_, .writeMsr .., rfl⟩
  | tsr => cases h; exact .inl ⟨_, .writeTsr .., rfl⟩
  | rfr x => cases h; exact .inl ⟨_, .setFifo _ x (Fifo.writeRfr_wf v), rfl⟩
  | ier | esr =>
    cases h
    refine .inl ⟨_, ?_, rfl⟩
    exact ⟨rfl, id⟩
  | tir x =>
    obtain ⟨m, hm, rfl⟩ := Except.map_cases h
    exact .inl ⟨_, .setMb _ x (Mailbox.writeTir_wf hm), rfl⟩
  | tdtr x | tdlr x | tdhr x =>
    obtain ⟨m, hm, rfl⟩ := Except.map_cases h
    obtain ⟨-, rfl⟩ := Mailbox.ifEmpty_cases hm
    refine .inl ⟨_, ?_, rfl⟩
    exact .setMb _ x id
  | rir | rdtr | rdlr | rdhr => cases h; exact .inl ⟨_, .refl _, (s.setCan_can_self i).symm⟩
  | fmr =>
    obtain ⟨fl, hfl, rfl⟩ := Except.map_cases h
    exact .inr ⟨fl, FilterBlock.writeFmr_wf hfl, rfl⟩
  | fm1r | fs1r | ffa1r | fa1r =>
    obtain ⟨fl, hfl, rfl⟩ := Except.map_cases h
    obtain ⟨-, rfl⟩ := FilterBlock.ifLatched_cases hfl
    refine .inr ⟨_, fun hf => ?_, rfl⟩
    rw [FilterBlock.wf_iff] at hf ⊢
    simp [vectorWf_bankBits, hf]
  | fr b k =>
    obtain ⟨fl, hfl, rfl⟩ := Except.map_cases h
    obtain ⟨-, rfl⟩ := FilterBlock.ifLatched_cases hfl
    refine .inr ⟨_, ?_, rfl⟩
    exact id

/-- No register write moves a mode: R201 only stores the request. -/
theorem writeRule_mode {a : Access} {s s' : State} {i j : Inst} {v : BusWord} {r : Reg}
    (h : writeRule a s i v r = .ok s') : (s'.can j).mode = (s.can j).mode := by
  rcases writeRule_change h with ⟨c, hc, rfl⟩ | ⟨fl, -, rfl⟩
  · by_cases hj : j = i
    · rw [hj, State.can_setCan_same, hc.mode]
    · rw [State.can_setCan_other _ _ _ _ hj]
  · rw [State.can_setFilter]

theorem writeRule_gaps {a : Access} {s s' : State} {i : Inst} {v : BusWord} {r : Reg}
    (h : writeRule a s i v r = .ok s') : s'.gaps = s.gaps := by
  rcases writeRule_change h with ⟨c, -, rfl⟩ | ⟨fl, -, rfl⟩ <;> simp

/-! ## The reset calls -/

@[simp] theorem clearReset_params (s : State) (i : Inst) : (clearReset i s).params = s.params := by
  unfold clearReset
  split <;> simp

@[simp] theorem clearReset_gaps (s : State) (i : Inst) : (clearReset i s).gaps = s.gaps := by
  unfold clearReset
  split <;> simp

theorem clearReset_can_same (s : State) (i : Inst) : (clearReset i s).can i = .atReset s.draws := by
  unfold clearReset
  split <;> simp

theorem clearReset_can_other (s : State) {i j : Inst} (h : j ≠ i) : (clearReset i s).can j = s.can j := by
  unfold clearReset
  split <;> simp [State.can_setCan_other _ _ _ _ h]

/-- The filter block after a reset call: at its reset values, or as it was. -/
theorem clearReset_filter (s : State) (i : Inst) :
    (∃ n, (clearReset i s).filter = .atReset n) ∨ (clearReset i s).filter = s.filter := by
  unfold clearReset
  split
  · exact .inl ⟨_, rfl⟩
  · exact .inr (by simp)

/-- `op reset` (R210) keeps what a gap and its two calls keep. -/
theorem KeptByAccesses.resetProg {I : State → Prop} (k : KeptByAccesses I) {i : Inst}
    (hassert : ∀ s, I s → I (s.setCan i { s.can i with resetAsserted := true }))
    (hclear : ∀ s, I s → I (clearReset i s)) : (resetProg atOnce i).Keeps I := by
  refine Prog.Keeps.bind ⟨fun s u t hs h => ?_⟩ fun _ => k.gap'.bind fun _ => ⟨fun s u t hs h => ?_⟩
  · rw [atOnce_assertReset, resetAssert] at h
    split at h <;> cases h
    exact hassert s hs
  · rw [atOnce_clearReset, resetClear] at h
    split at h <;> cases h
    exact hclear s hs

/-! ## The mode (R33) -/

/-- The schedule has ended and the mode of controller j is m. -/
def quietInMode (j : Inst) (m : Mode) (s : State) : Prop := s.gaps = [] ∧ (s.can j).mode = m

theorem quietInMode_kept (j : Inst) (m : Mode) : KeptByAccesses (quietInMode j m) where
  draws s n hs := by simpa [quietInMode] using hs
  returning s r hs := by simpa [quietInMode] using hs
  gap s hs := by rwa [afterGap_of_ended s hs.1]
  write a s i v r s' hs h := ⟨(writeRule_gaps h).trans hs.1, (writeRule_mode h).trans hs.2⟩

/-- A reset of another controller leaves the mode alone. -/
theorem resetProg_keeps_quietInMode {i j : Inst} (m : Mode) (h : j ≠ i) :
    (resetProg atOnce i).Keeps (quietInMode j m) := by
  refine (quietInMode_kept j m).resetProg (fun s hs => ?_) fun s hs => ?_
  · simpa [quietInMode, State.can_setCan_other _ _ _ _ h] using hs
  · simpa [quietInMode, clearReset_can_other s h] using hs

/-- Settles O22: register writes and the agents other than `ModeFsm` move no mode, by cases over the registers and the
agents; an instruction without agent steps in its gaps is made of register accesses, `op reset` of its two calls too. -/
theorem modeMovesOnlyByFsmOrReset : Obligations.ModeMovesOnlyByFsmOrReset := by
  refine ⟨fun ins s t j h hg hins => ?_, fun a s j ha => (agentStep_keepsModeAndWf ha s).mode⟩
  have hreset : ∀ i, ins = .opReset i → (resetProg atOnce i).Keeps (quietInMode j (s.can j).mode) :=
    fun i hi => resetProg_keeps_quietInMode _ fun hji => hins (by rw [hi, hji])
  exact ((quietInMode_kept j _).exec hreset ⟨hg, rfl⟩ h).2

/-! ## Good states (R58) -/

theorem State.wf_iff (s : State) : s.wf = true ↔ (∀ i, (s.can i).wf = true) ∧ s.filter.wf s.params = true := by
  have hcan : (∀ i, (s.can i).wf = true) ↔ s.can1.wf = true ∧ s.can2.wf = true :=
    ⟨fun h => ⟨h .can1, h .can2⟩, fun ⟨h1, h2⟩ i => by cases i; exacts [h1, h2]⟩
  rw [hcan]
  simp only [State.wf, Bool.and_eq_true]

/-- A good state of the part with parameters p. -/
def goodPart (p : Params) (s : State) : Prop := s.wf = true ∧ s.params = p

namespace goodPart
variable {p : Params} {s t : State}

theorem sameBlock (h : sameBlock s t) (hs : goodPart p s) : goodPart p t := by
  obtain ⟨h1, h2, hf, -, hp⟩ := h
  obtain ⟨hwf, rfl⟩ := hs
  exact ⟨by rwa [State.wf, h1, h2, hf, hp], hp⟩

theorem setCan {i : Inst} {c : Controller} (hs : goodPart p s) (hc : c.wf = true) : goodPart p (s.setCan i c) := by
  obtain ⟨hcan, hf⟩ := (State.wf_iff s).1 hs.1
  refine ⟨(State.wf_iff _).2 ⟨fun j => ?_, by simpa using hf⟩, by simpa using hs.2⟩
  by_cases hj : j = i
  · rw [hj, State.can_setCan_same]
    exact hc
  · rw [State.can_setCan_other _ _ _ _ hj]
    exact hcan j

theorem can (hs : goodPart p s) (i : Inst) : (s.can i).wf = true := ((State.wf_iff s).1 hs.1).1 i

theorem filter (hs : goodPart p s) : s.filter.wf s.params = true := ((State.wf_iff s).1 hs.1).2

theorem agentStep (a : AgentStep) (hs : goodPart p s) : goodPart p (agentStep a s) :=
  ⟨(State.wf_iff _).2 ⟨fun j => agentStep_can_wf a s j (hs.can j), by simpa using hs.filter⟩, by simpa using hs.2⟩

theorem afterGap (hs : goodPart p s) : goodPart p (afterGap s) :=
  afterGap_keeps (goodPart p) (fun _ _ h => h) (fun a _ h => h.agentStep a) s hs

theorem write {a : Access} {i : Inst} {v : BusWord} {r : Reg} (hs : goodPart p s)
    (h : writeRule a s i v r = .ok t) : goodPart p t := by
  rcases writeRule_change h with ⟨c, hc, rfl⟩ | ⟨fl, hfl, rfl⟩
  · exact hs.setCan (hc.wf (hs.can i))
  · exact ⟨(State.wf_iff _).2 ⟨fun j => by simpa using hs.can j, hfl hs.filter⟩, hs.2⟩

theorem assertReset (i : Inst) (hs : goodPart p s) :
    goodPart p (s.setCan i { s.can i with resetAsserted := true }) :=
  hs.setCan ((Controller.KeepsModeAndWf.assertReset _).wf (hs.can i))

theorem clearReset (i : Inst) (hs : goodPart p s) : goodPart p (clearReset i s) := by
  refine ⟨(State.wf_iff _).2 ⟨fun j => ?_, ?_⟩, by simpa using hs.2⟩
  · by_cases hj : j = i
    · rw [hj, clearReset_can_same]
      exact Controller.atReset_wf _
    · rw [clearReset_can_other s hj]
      exact hs.can j
  · rw [clearReset_params]
    rcases clearReset_filter s i with ⟨n, h⟩ | h <;> rw [h]
    · exact FilterBlock.atReset_wf _ n
    · exact hs.filter

theorem kept (p : Params) : KeptByAccesses (goodPart p) where
  draws _ _ hs := hs
  returning _ _ hs := hs
  gap _ hs := hs.afterGap
  write _ _ _ _ _ _ hs h := hs.write h

theorem exec {i : Instr} (hs : goodPart p s) (h : exec i s = .next t) : goodPart p t :=
  (kept p).exec (fun j _ => (kept p).resetProg (fun _ hs => hs.assertReset j) fun _ hs => hs.clearReset j) hs h

theorem oneStep (hs : goodPart p s) (h : OneStep s t) : goodPart p t :=
  h.keeps (fun _ _ hst hs => hs.sameBlock hst) (fun _ _ _ _ _ _ hs h => hs.write h) (fun _ i hs => hs.assertReset i)
    (fun _ i hs => hs.clearReset i) hs

/-- The host's turn: a request taken at once is `exec` of its instruction, and any other turn is at most one host
step. -/
theorem hostTurn (hs : goodPart p s) (h : hostTurn s = .next t) : goodPart p t := by
  by_cases hr : s.call = none ∧ ∃ c rest, s.program = .atOnce c :: rest
  · obtain ⟨hcall, c, rest, hprog⟩ := hr
    have hs' : goodPart p { s with program := rest } := hs
    rw [hostTurn_of_request hcall hprog] at h
    cases hd : decode c with
    | ok i => exact hs'.exec (by rwa [runRequest_atOnce hd] at h)
    | error e =>
      simp only [runRequest, runDecoded, hd] at h
      exact absurd h (decodeFailure_ne_next e _ t)
  · exact hs.oneStep (hostTurn_one (fun hcall c rest hprog => hr ⟨hcall, c, rest, hprog⟩) h)

theorem step (hs : goodPart p s) (h : step s = .next t) : goodPart p t := by
  match hg : s.gaps with
  | (a :: l) :: g =>
    have hs' : goodPart p { s with gaps := l :: g } := hs
    rw [step_of_agent hg] at h
    cases h
    exact hs'.agentStep a
  | [] :: g =>
    have hs' : goodPart p { s with gaps := g } := hs
    exact hs'.hostTurn (by rwa [step_of_emptyGap hg] at h)
  | [] => exact hs.hostTurn (by rwa [step_of_ended hg] at h)

end goodPart

/-- Settles O59: a step is an agent's, or the host's turn, which is made of register writes and reset calls; each keeps
a good state good. -/
theorem stepKeepsGoodStates : Obligations.StepKeepsGoodStates :=
  fun s _ hs h => goodPart.step (p := s.params) ⟨hs, rfl⟩ h

end Sys2Proof.Machine

/-! PROOFS. The host's accesses and the bus log (20_memory.md): where a raw access goes (R121), when it faults (R124),
that a read changes nothing (R126), and that frames leave the block only by a successful attempt (R136). -/

namespace Sys2Proof.Machine

/-! ## Raw accesses (R121) -/

/-- When the windows do not overlap, an address in the window of i belongs to i alone. -/
theorem locate_regAddress {p : Params} {i : Inst} {off : Nat} (hi : hasInst p i = true) (ho : off < Config.windowSize)
    (hw : canBase p .can1 + Config.windowSize ≤ canBase p .can2 ∨
      canBase p .can2 + Config.windowSize ≤ canBase p .can1) :
    locate p (regAddress p i off) = some (i, off) := by
  have hin : canBase p i ≤ canBase p i + off ∧ canBase p i + off < canBase p i + Config.windowSize := by omega
  rw [regAddress, locate]
  simp only [Bool.and_eq_true, decide_eq_true_eq]
  cases i with
  | can1 => rw [if_pos hin, Nat.add_sub_cancel_left]
  | can2 =>
    obtain ⟨hle, hlt⟩ := hin
    rw [if_neg (by omega), if_pos ⟨⟨hi, hle⟩, hlt⟩, Nat.add_sub_cancel_left]

theorem runRequest_bus {s : State} {addr : Nat} {i : Inst} {off : Nat} (h : locate s.params addr = some (i, off))
    (width : Width) (w : Option Word) :
    runRequest (.bus addr width w) s = runDecoded (busAccess i off width w).decode s := by
  simp only [runRequest, h]

/-- Settles O5: the address lies in the window of i alone, so the raw access is the access to its offset there. -/
theorem physicalAddressesReachTheirRegister : Obligations.PhysicalAddressesReachTheirRegister := by
  intro s i off width w hi ho hw
  have hreq := runRequest_bus (locate_regAddress hi ho hw) width w
  cases i <;> exact hreq

/-! ## Width and alignment (R124) -/

theorem Access.decode_badWidth {a : Access} (h : a.width ≠ .w32 ∨ a.word.extractLsb' 0 2 ≠ 0) :
    a.decode = .error (.badAccessWidth a) := by
  unfold Access.decode
  exact if_neg fun ⟨hw, hal⟩ => h.elim (· hw) (· hal)

/-- The two low bits of an access word are those of its offset (R150). -/
theorem accessWord_aligned_iff (write : Bool) {off : Nat} (h : off < 0x400) :
    (BitVec.ofNat 11 ((if write then 0x400 else 0) + off)).extractLsb' 0 2 = 0 ↔ off % 4 = 0 := by
  obtain ⟨-, -, hlow⟩ := accessWord_fields write off h
  rw [← BitVec.toNat_inj, hlow]
  rfl

/-- An access to a controller that is there and not in reset is not stopped before its word is looked at (R458). -/
theorem stoppedAccess_of_open {s : State} {a : Access} (hi : hasInst s.params a.inst = true)
    (hr : (s.can a.inst).resetAsserted = false) (f : Fault) : stoppedAccess s a f = .fault f := by
  simp [stoppedAccess, accessStop, hi, hr]

/-- Settles O7: the decoder rejects such an access, and nothing stops it earlier. -/
theorem badWidthOrAlignmentFaults : Obligations.BadWidthOrAlignmentFaults := by
  intro s i off width w hi hr ho hbad a
  have hbad' : a.width ≠ .w32 ∨ a.word.extractLsb' 0 2 ≠ 0 :=
    hbad.imp_right fun hal => hal ∘ (accessWord_aligned_iff w.isSome ho).1
  rw [Access.decode_badWidth hbad']
  exact stoppedAccess_of_open hi hr _

/-! ## Reads (R126) -/

/-- The draw of a word read is the one its read took, when any bit of it is drawn. -/
theorem readRule_draw (s : State) (i : Inst) (d : Word) (r : Reg) :
    (readRule s i d r).free = 0 ∨ (readRule s i d r).draw = d := by
  cases r with
  | tir | tdlr | tdhr | fr => exact .inl rfl
  | mcr | msr | tsr | rfr | ier | esr | btr | tdtr | fm1r | fs1r | ffa1r | fa1r => exact .inr rfl
  | rir x | rdtr x =>
    simp only [readRule, readRir, readRdtr]
    split <;> exact .inr rfl
  | rdlr x | rdhr x =>
    simp only [readRule, readRdlr, readRdhr]
    split
    · exact .inr rfl
    · exact .inl rfl
  | fmr =>
    simp only [readRule, readFmr]
    split <;> exact .inr rfl

/-- Settles O13: a read that is let through takes one draw and returns what its register's rule says. -/
theorem readsChangeNoBlockState : Obligations.ReadsChangeNoBlockState :=
  fun _ _ _ h => ⟨_, exec_rd_ok h, readRule_draw ..⟩

/-! ## Properties of the block that every step keeps -/

/-- A property of the block that agents, register writes and reset calls keep. -/
structure BlockInvariant (I : State → Prop) : Prop where
  sameBlock : ∀ s t, sameBlock s t → I s → I t
  agentStep : ∀ a s, I s → I (agentStep a s)
  write : ∀ a s i v r s', I s → writeRule a s i v r = .ok s' → I s'
  assertReset : ∀ s i, I s → I (s.setCan i { s.can i with resetAsserted := true })
  clearReset : ∀ s i, I s → I (clearReset i s)

namespace BlockInvariant
variable {I : State → Prop} {s t : State}

theorem keptByAccesses (k : BlockInvariant I) : KeptByAccesses I where
  draws s _ := k.sameBlock s _ (sameBlock_refl s)
  returning s _ := k.sameBlock s _ (sameBlock_refl s)
  gap := afterGap_keeps I (fun s _ => k.sameBlock s _ (sameBlock_refl s)) k.agentStep
  write := k.write

theorem exec (k : BlockInvariant I) {ins : Instr} (hs : I s) (h : exec ins s = .next t) : I t :=
  k.keptByAccesses.exec (fun i _ => k.keptByAccesses.resetProg (k.assertReset · i) (k.clearReset · i)) hs h

theorem oneStep (k : BlockInvariant I) (hs : I s) (h : OneStep s t) : I t :=
  h.keeps k.sameBlock k.write k.assertReset k.clearReset hs

/-- The host's turn is `exec` of a request taken at once, or else at most one host step. -/
theorem hostTurn (k : BlockInvariant I) (hs : I s) (h : hostTurn s = .next t) : I t := by
  by_cases hr : s.call = none ∧ ∃ c rest, s.program = .atOnce c :: rest
  · obtain ⟨hcall, c, rest, hprog⟩ := hr
    have hs' : I { s with program := rest } := k.sameBlock s _ (sameBlock_refl s) hs
    rw [hostTurn_of_request hcall hprog] at h
    cases hd : decode c with
    | ok i =>
      rw [runRequest_atOnce hd] at h
      exact k.exec hs' h
    | error e =>
      simp only [runRequest, runDecoded, hd] at h
      exact absurd h (decodeFailure_ne_next e _ t)
  · exact k.oneStep hs (hostTurn_one (fun hcall c rest hprog => hr ⟨hcall, c, rest, hprog⟩) h)

theorem step (k : BlockInvariant I) (hs : I s) (h : step s = .next t) : I t := by
  have hgaps : ∀ g, I { s with gaps := g } := fun _ => k.sameBlock s _ (sameBlock_refl s) hs
  match hg : s.gaps with
  | (a :: l) :: g =>
    rw [step_of_agent hg] at h
    cases h
    exact k.agentStep a _ (hgaps _)
  | [] :: g => exact k.hostTurn (hgaps g) (by rwa [step_of_emptyGap hg] at h)
  | [] => exact k.hostTurn hs (by rwa [step_of_ended hg] at h)

end BlockInvariant

/-! ## The bus log (R136) -/

theorem writeRule_busOut {a : Access} {s s' : State} {i : Inst} {v : BusWord} {r : Reg}
    (h : writeRule a s i v r = .ok s') : s'.busOut = s.busOut := by
  rcases writeRule_change h with ⟨c, -, rfl⟩ | ⟨fl, -, rfl⟩ <;> simp

@[simp] theorem clearReset_busOut (s : State) (i : Inst) : (clearReset i s).busOut = s.busOut := by
  unfold clearReset
  split <;> simp

/-- The drawn bytes of time-triggered mode (R361) replace data only: the frame sent is the mailbox's by its
identifier. -/
theorem sentFrame_id (c : Controller) (m : Mailbox) (b6 b7 : Byte) : (sentFrame c m b6 b7).id = m.frame.id := by
  unfold sentFrame
  split <;> rfl

/-- Every agent but a successful attempt sends nothing (R356). -/
theorem agentStep_busOut (a : AgentStep) (s : State) : (agentStep a s).busOut = s.busOut ∨
    ∃ i x stamp b6 b7 ka kt rx, a = .txAttempt i x stamp b6 b7 (.success ka kt rx) ∧
      (agentStep a s).busOut = s.busOut ++ [(i, sentFrame (s.can i) ((s.can i).mb x) b6 b7)] := by
  rcases agentStep_cases a s with ⟨-, h⟩ | ⟨-, h⟩ <;> rw [h]
  · cases a with
    | modeFsm i =>
      simp only [AgentStep.perform]
      split <;> simp
    | txAbort | rxFrame | errorEvent | wakeUp | busOffRecovery => exact .inl (State.setCan_busOut ..)
    | txAttempt i x stamp b6 b7 o =>
      simp only [AgentStep.perform, attemptStep, State.send_busOut, State.setCan_busOut]
      cases o with
      | arbitrationLost | error => exact .inl (List.append_nil _)
      | success ka kt rx =>
        simp only [sentToBus]
        split
        · exact .inl (List.append_nil _)
        · exact .inr ⟨i, x, stamp, b6, b7, ka, kt, rx, rfl, rfl⟩
  · exact .inl rfl

theorem agentStep_log_grows (a : AgentStep) (s : State) : s.busOut <+: (agentStep a s).busOut := by
  rcases agentStep_busOut a s with h | ⟨i, x, stamp, b6, b7, ka, kt, rx, -, h⟩ <;> rw [h]
  exact List.prefix_append ..

/-- The schedule has ended and the frames sent are l. -/
def quietWithLog (l : List (Inst × Frame)) (s : State) : Prop := s.gaps = [] ∧ s.busOut = l

theorem quietWithLog_kept (l : List (Inst × Frame)) : KeptByAccesses (quietWithLog l) where
  draws _ _ hs := hs
  returning _ _ hs := hs
  gap s hs := by rwa [afterGap_of_ended s hs.1]
  write _ _ _ _ _ _ hs h := ⟨(writeRule_gaps h).trans hs.1, (writeRule_busOut h).trans hs.2⟩

theorem resetProg_keeps_quietWithLog (l : List (Inst × Frame)) (i : Inst) :
    (resetProg atOnce i).Keeps (quietWithLog l) :=
  (quietWithLog_kept l).resetProg (fun s hs => by simpa [quietWithLog] using hs) fun s hs => by
    simpa [quietWithLog] using hs

/-- That the frames l have been sent is never undone. -/
theorem logExtends_blockInvariant (l : List (Inst × Frame)) : BlockInvariant (fun s => l <+: s.busOut) where
  sameBlock s t h hs := by
    obtain ⟨-, -, -, hlog, -⟩ := h
    rwa [hlog]
  agentStep a s hs := hs.trans (agentStep_log_grows a s)
  write a s i v r s' hs h := by rwa [writeRule_busOut h]
  assertReset s i hs := by rwa [State.setCan_busOut]
  clearReset s i hs := by rwa [clearReset_busOut]

/-- Settles O53: register writes and reset calls leave the log alone, so an instruction without agent steps in its gaps
does; of the agents only a successful attempt appends; and a log that extends another does so after every step. -/
theorem framesLeaveOnlyByTransmission : Obligations.FramesLeaveOnlyByTransmission := by
  refine ⟨fun ins s t h hg => ?_, fun a s => ?_, fun s t h => ?_⟩
  · have hreset : ∀ i, ins = .opReset i → (resetProg atOnce i).Keeps (quietWithLog s.busOut) :=
      fun i _ => resetProg_keeps_quietWithLog _ i
    exact ((quietWithLog_kept s.busOut).exec hreset ⟨hg, rfl⟩ h).2
  · rcases agentStep_busOut a s with h | ⟨i, x, stamp, b6, b7, ka, kt, rx, ha, h⟩
    · exact .inl h
    · exact .inr ⟨i, x, stamp, b6, b7, ka, kt, rx, _, ha, sentFrame_id .., h⟩
  · exact (logExtends_blockInvariant s.busOut).step (List.prefix_refl _) h

end Sys2Proof.Machine

/-! PROOFS. The encoding (30_encoding.md): the decoder and the encoder undo each other (R150, R151, R154), which
register an offset selects and which offsets are reserved (R151, R152), and the identifier words of a frame (R156 to
R159). -/

namespace Sys2Proof

/-! ## Accesses as bytes (R150) -/

/-- W is the top bit of an access word. -/
theorem accessWord_write_eq (w : BitVec 11) : w.getLsbD 10 = decide (1024 ≤ w.toNat) :=
  (BitVec.msb_eq_getLsbD_last w).symm.trans (BitVec.msb_eq_decide w)

/-- An access word is its W and its OFF. -/
theorem accessWord_eta (w : BitVec 11) :
    BitVec.ofNat 11 ((if w.getLsbD 10 then 1024 else 0) + (w.extractLsb' 0 10).toNat) = w := by
  have hw := w.isLt
  apply BitVec.eq_of_toNat_eq
  simp only [accessWord_write_eq, decide_eq_true_eq, BitVec.toNat_ofNat, BitVec.extractLsb'_toNat]
  split <;> omega

/-- OFF modulo 4 is its two low bits. -/
theorem accessWord_offset_mod_four (w : BitVec 11) :
    (w.extractLsb' 0 10).toNat % 4 = (w.extractLsb' 0 2).toNat := by
  simp only [BitVec.extractLsb'_toNat]
  omega

theorem getWord_bytes (w : Word) (rest : List Byte) : getWord (leBytes 4 w.toNat ++ rest) = .ok (w, rest) := by
  rw [getWord, Parse.bind_ok (getNat_leBytes 4 _ w.isLt rest)]
  simp

theorem getWord_cases {w : Word} {bs rest : List Byte} (h : getWord bs = .ok (w, rest)) :
    bs = leBytes 4 w.toNat ++ rest := by
  obtain ⟨n, mid, hn, h⟩ := Parse.bind_cases h
  obtain ⟨hlt, hbs⟩ := getNat_cases hn
  cases h
  rwa [BitVec.toNat_ofNat, Nat.mod_eq_of_lt (b := 2 ^ 32) hlt]

theorem getHalf_bytes (w : Half) (rest : List Byte) : getHalf (leBytes 2 w.toNat ++ rest) = .ok (w, rest) := by
  rw [getHalf, Parse.bind_ok (getNat_leBytes 2 _ w.isLt rest)]
  simp

theorem getHalf_cases {w : Half} {bs rest : List Byte} (h : getHalf bs = .ok (w, rest)) :
    bs = leBytes 2 w.toNat ++ rest := by
  obtain ⟨n, mid, hn, h⟩ := Parse.bind_cases h
  obtain ⟨hlt, hbs⟩ := getNat_cases hn
  cases h
  rwa [BitVec.toNat_ofNat, Nat.mod_eq_of_lt (b := 2 ^ 16) hlt]

/-- The fields of a timing fit their operand bytes (log 8). -/
theorem Timing.wellFormed_iff (t : Timing) : t.wellFormed = true ↔
    t.ts1 < 256 ^ 2 ∧ t.ts2 < 256 ^ 2 ∧ t.brp < 256 ^ 2 ∧ t.sjw < 256 ^ 2 := by
  simp only [Timing.wellFormed, Bool.and_eq_true, decide_eq_true_eq, and_assoc]
  rfl

theorem getTiming_bytes {t : Timing} (h : t.wellFormed = true) (rest : List Byte) :
    getTiming (t.bytes ++ rest) = .ok (t, rest) := by
  obtain ⟨h1, h2, h3, h4⟩ := t.wellFormed_iff.1 h
  simp only [getTiming, Timing.bytes, List.append_assoc]
  rw [Parse.bind_ok (getNat_leBytes 2 _ h1 _), Parse.bind_ok (getNat_leBytes 2 _ h2 _),
    Parse.bind_ok (getNat_leBytes 2 _ h3 _), Parse.bind_ok (getNat_leBytes 2 _ h4 _)]
  rfl

theorem getTiming_cases {t : Timing} {bs rest : List Byte} (h : getTiming bs = .ok (t, rest)) :
    t.wellFormed = true ∧ bs = t.bytes ++ rest := by
  obtain ⟨_, _, h1, h⟩ := Parse.bind_cases h
  obtain ⟨_, _, h2, h⟩ := Parse.bind_cases h
  obtain ⟨_, _, h3, h⟩ := Parse.bind_cases h
  obtain ⟨_, _, h4, h⟩ := Parse.bind_cases h
  cases h
  obtain ⟨l1, rfl⟩ := getNat_cases h1
  obtain ⟨l2, rfl⟩ := getNat_cases h2
  obtain ⟨l3, rfl⟩ := getNat_cases h3
  obtain ⟨l4, rfl⟩ := getNat_cases h4
  exact ⟨(Timing.wellFormed_iff _).2 ⟨l1, l2, l3, l4⟩, by simp only [Timing.bytes, List.append_assoc]⟩

/-- Reads and writes are told apart by W, and a write has its data (R150). -/
theorem getAccess_bytes {a : Access} (h : a.word.getLsbD 10 = a.data.isSome) (rest : List Byte) :
    getAccess (a.bytes ++ rest) = .ok (a, rest) := by
  obtain ⟨i, w, width, data⟩ := a
  have hw := w.isLt
  have hlt : w.toNat < 256 ^ 2 := by omega
  rw [accessWord_write_eq] at h
  simp only [getAccess, Access.bytes, List.append_assoc]
  rw [Parse.bind_ok (getNat_leBytes 2 _ hlt _), if_neg (by omega), Parse.bind_ok (getInst_bytes _ _),
    Parse.bind_ok (getWidth_bytes _ _)]
  cases data with
  | none =>
    rw [if_neg (by simpa using h)]
    simp
  | some v =>
    rw [if_pos (by simpa using h), Parse.bind_ok (getWord_bytes _ _)]
    simp

theorem getAccess_cases {a : Access} {bs rest : List Byte} (h : getAccess bs = .ok (a, rest)) :
    a.word.getLsbD 10 = a.data.isSome ∧ bs = a.bytes ++ rest := by
  obtain ⟨n, _, hn, hk⟩ := Parse.bind_cases h
  obtain ⟨-, rfl⟩ := getNat_cases hn
  split at hk
  · cases hk
  obtain ⟨i, _, hi, hk⟩ := Parse.bind_cases hk
  obtain ⟨width, _, hwidth, hk⟩ := Parse.bind_cases hk
  rw [getInst_cases hi, getWidth_cases hwidth]
  have hword : (BitVec.ofNat 11 n).toNat = n := by rw [BitVec.toNat_ofNat]; omega
  have hW : (BitVec.ofNat 11 n).getLsbD 10 = decide (1024 ≤ n) := by rw [accessWord_write_eq, hword]
  split at hk
  · next hn =>
    obtain ⟨v, _, hv, hk⟩ := Parse.bind_cases hk
    rw [getWord_cases hv]
    cases hk
    exact ⟨hW.trans (decide_eq_true hn), by simp [Access.bytes, hword]⟩
  · next hn =>
    cases hk
    exact ⟨hW.trans (decide_eq_false hn), by simp [Access.bytes, hword]⟩

theorem Access.decode_readReg (i : Inst) (r : Reg) : (Access.read i r).decode = .ok (Instr.rd r i) := by
  have hr := r.offset_lt
  have h := Access.decode_read i r.offset (by omega) r.offset_aligned
  rw [Reg.ofOffset?_offset] at h
  simpa [Access.read, Reg.accessWord] using h

theorem Access.decode_writeReg (i : Inst) (r : Reg) (v : Word) :
    (Access.write i r v).decode = .ok (Instr.wr r i v) := by
  have hr := r.offset_lt
  have h := Access.decode_write i r.offset v (by omega) r.offset_aligned
  rwa [Reg.ofOffset?_offset] at h

/-- What an access decodes to is the read or the write of the register it is an access to. -/
theorem Access.decode_cases {a : Access} {ins : Instr} (hW : a.word.getLsbD 10 = a.data.isSome)
    (h : a.decode = .ok ins) :
    ∃ r i, (a = .read i r ∧ ins = .rd r i) ∨ ∃ v, a = .write i r v ∧ ins = .wr r i v := by
  obtain ⟨i, w, width, data⟩ := a
  unfold Access.decode at h
  split at h
  case isFalse => cases h
  case isTrue hok =>
    obtain ⟨rfl, hal⟩ := hok
    split at h
    · cases h
    next r hr =>
      have hoff : r.offset = (w.extractLsb' 0 10).toNat := by
        have hmod : (w.extractLsb' 0 10).toNat % 4 = 0 := by rw [accessWord_offset_mod_four, hal]; rfl
        exact Reg.offset_of_ofOffset? hmod hr
      have hword : r.accessWord (w.getLsbD 10) = w := by rw [Reg.accessWord, hoff, accessWord_eta]
      refine ⟨r, i, ?_⟩
      dsimp only at hW h
      rw [hW] at h hword
      cases data with
      | none =>
        cases h
        exact .inl ⟨by rw [Access.read, ← hword]; rfl, rfl⟩
      | some v =>
        cases h
        exact .inr ⟨v, by rw [Access.write, ← hword]; rfl, rfl⟩

/-! ## Operations as bytes (R154) -/

theorem bankWellFormed_iff (bank fifoId : Nat) :
    bankWellFormed bank fifoId = true ↔ bank < 256 ^ 1 ∧ fifoId < 256 ^ 1 := by
  simp only [bankWellFormed, Bool.and_eq_true, decide_eq_true_eq]
  rfl

theorem payloadWellFormed_iff (length : Nat) (data : List Byte) : payloadWellFormed length data = true ↔
    length < 256 ^ 1 ∧ data.length < 256 ^ 1 ∧ min length 8 ≤ data.length := by
  simp only [payloadWellFormed, Bool.and_eq_true, decide_eq_true_eq, and_assoc]
  rfl

theorem Instr.wellFormed_opComputeTiming (rate sp pclk : Nat) :
    (Instr.opComputeTiming rate sp pclk).wellFormed = true ↔ rate < 256 ^ 4 ∧ sp < 256 ^ 1 ∧ pclk < 256 ^ 4 := by
  change (decide (rate < 256 ^ 4) && decide (sp ≤ 255) && decide (pclk < 256 ^ 4)) = true ↔ _
  simp only [Bool.and_eq_true, decide_eq_true_eq, and_assoc]
  omega

theorem Instr.wellFormed_opGetEffectiveBitrate (t : Timing) (pclk : Nat) :
    (Instr.opGetEffectiveBitrate t pclk).wellFormed = true ↔ t.wellFormed = true ∧ pclk < 256 ^ 4 := by
  change (t.wellFormed && decide (pclk < 256 ^ 4)) = true ↔ _
  simp only [Bool.and_eq_true, decide_eq_true_eq]

theorem Instr.wellFormed_opReceive (i : Inst) (fifoId : Nat) (autoRelease : Bool) :
    (Instr.opReceive i fifoId autoRelease).wellFormed = true ↔ fifoId < 256 ^ 1 :=
  decide_eq_true_iff

theorem Instr.wellFormed_opReleaseFifo (i : Inst) (fifoId : Nat) :
    (Instr.opReleaseFifo i fifoId).wellFormed = true ↔ fifoId < 256 ^ 1 :=
  decide_eq_true_iff

/-- Of the bytes of an instruction, after `pre` of them have been read, p reads the others and answers it. -/
structure Parse.ReadsBack (ins : Instr) (bytes pre : List Byte) (p : Parse Instr) : Prop where
  readsRest : ∃ more, bytes = pre ++ more ∧ ∀ rest, p (more ++ rest) = .ok (ins, rest)

namespace Parse.ReadsBack
variable {α : Type} {ins : Instr} {bytes pre : List Byte}

/-- One more piece. -/
theorem bind {p : Parse α} {k : α → Parse Instr} {a : α} {piece : List Byte}
    (hp : ∀ rest, p (piece ++ rest) = .ok (a, rest)) (hk : ReadsBack ins bytes (pre ++ piece) (k a)) :
    ReadsBack ins bytes pre (p >>= k) := by
  obtain ⟨more, hbytes, hmore⟩ := hk
  refine ⟨piece ++ more, by rw [hbytes, List.append_assoc], fun rest => ?_⟩
  rw [List.append_assoc, Parse.bind_ok (hp _), hmore]

theorem pure : ReadsBack ins bytes bytes (Pure.pure ins) := ⟨[], (List.append_nil _).symm, fun _ => rfl⟩

/-- The selector of an operation. -/
theorem selector {k : Byte → Parse Instr} {sel : Byte} (hk : ReadsBack ins (sel :: bytes) [sel] (k sel)) :
    ReadsBack ins (sel :: bytes) [] (getByte >>= k) :=
  bind (getByte_cons sel) hk

theorem inst {k : Inst → Parse Instr} {i : Inst} : ReadsBack ins bytes (pre ++ i.bytes) (k i) →
    ReadsBack ins bytes pre (getInst >>= k) :=
  bind (getInst_bytes i)

theorem flag {k : Bool → Parse Instr} {b : Bool} : ReadsBack ins bytes (pre ++ flagBytes b) (k b) →
    ReadsBack ins bytes pre (getFlag >>= k) :=
  bind (getFlag_bytes b)

theorem word {k : Word → Parse Instr} {w : Word} : ReadsBack ins bytes (pre ++ leBytes 4 w.toNat) (k w) →
    ReadsBack ins bytes pre (getWord >>= k) :=
  bind (getWord_bytes w)

theorem half {k : Half → Parse Instr} {w : Half} : ReadsBack ins bytes (pre ++ leBytes 2 w.toNat) (k w) →
    ReadsBack ins bytes pre (getHalf >>= k) :=
  bind (getHalf_bytes w)

theorem nat {n m : Nat} {k : Nat → Parse Instr} (hm : m < 256 ^ n) :
    ReadsBack ins bytes (pre ++ leBytes n m) (k m) → ReadsBack ins bytes pre (getNat n >>= k) :=
  bind (getNat_leBytes n m hm)

theorem timing {k : Timing → Parse Instr} {t : Timing} (ht : t.wellFormed = true) :
    ReadsBack ins bytes (pre ++ t.bytes) (k t) → ReadsBack ins bytes pre (getTiming >>= k) :=
  bind (getTiming_bytes ht)

theorem byteList {k : List Byte → Parse Instr} {l : List Byte} : ReadsBack ins bytes (pre ++ l) (k l) →
    ReadsBack ins bytes pre (getBytes l.length >>= k) :=
  bind (getBytes_append l)

/-- A check that the instruction passes. -/
theorem check {c : Prop} [Decidable c] {p q : Parse Instr} (hc : ¬c) (hq : ReadsBack ins bytes pre q) :
    ReadsBack ins bytes pre (if c then p else q) := by
  rwa [if_neg hc]

end Parse.ReadsBack

/-- The operands of a well-formed operation are read back from its bytes, one after the other. -/
theorem getOperation_readsBack {ins : Instr} (hop : (encode ins).fmt = .operation) (h : ins.wellFormed = true) :
    Parse.ReadsBack ins (encode ins).bytes [] getOperation := by
  cases ins with
  | opReset | opEnterInit | opLeaveInit | opEnterSleep | opLeaveSleep | opIsInit | opIsSleep | opEnterInitBlocking
  | opLeaveInitBlocking | opGetEmptyMailbox | opAvailableMailbox => exact .selector <| .inst .pure
  | opComputeTiming =>
    obtain ⟨hrate, hsp, hpclk⟩ := (Instr.wellFormed_opComputeTiming ..).1 h
    exact .selector <| .nat hrate <| .nat hsp <| .nat hpclk .pure
  | opApplyTiming => exact .selector <| .inst <| .timing h .pure
  | opGetEffectiveBitrate =>
    obtain ⟨ht, hpclk⟩ := (Instr.wellFormed_opGetEffectiveBitrate ..).1 h
    exact .selector <| .timing ht <| .nat hpclk .pure
  | opConfigureFilter =>
    obtain ⟨hbank, hfifo⟩ := (bankWellFormed_iff ..).1 h
    exact .selector <| .inst <| .nat hbank <| .flag <| .flag <| .word <| .word <| .nat hfifo <| .flag .pure
  | opFilterIdMask16 | opFilterIdList16 =>
    obtain ⟨hbank, hfifo⟩ := (bankWellFormed_iff ..).1 h
    exact .selector <| .inst <| .nat hbank <| .half <| .half <| .half <| .half <| .nat hfifo <| .flag .pure
  | opFilterIdMask32 | opFilterIdList32 =>
    obtain ⟨hbank, hfifo⟩ := (bankWellFormed_iff ..).1 h
    exact .selector <| .inst <| .nat hbank <| .word <| .word <| .nat hfifo <| .flag .pure
  | opTransmit =>
    obtain ⟨hlength, hcount, hdata⟩ := (payloadWellFormed_iff ..).1 h
    exact .selector <| .inst <| .word <| .flag <| .flag <| .nat hlength <| .nat hcount <| .byteList <|
      .check hdata.not_gt .pure
  | opReceive => exact .selector <| .inst <| .nat ((Instr.wellFormed_opReceive ..).1 h) <| .flag .pure
  | opReleaseFifo => exact .selector <| .inst <| .nat ((Instr.wellFormed_opReleaseFifo ..).1 h) .pure
  | _ => cases hop

/-- Whatever p answers, after the selector and the operand bytes `pre` have been read, is a well-formed operation, and
the bytes read are its encoding. -/
structure Parse.ReadsOnlyEncodings (selector : Byte) (pre : List Byte) (p : Parse Instr) : Prop where
  encoded : ∀ {bs ins rest}, p bs = .ok (ins, rest) →
    ins.wellFormed = true ∧ ∃ more, bs = more ++ rest ∧ encode ins = encodeOp selector (pre ++ more)

namespace Parse.ReadsOnlyEncodings
variable {α : Type} {selector : Byte} {pre : List Byte}

/-- One more operand. -/
theorem bind {p : Parse α} {k : α → Parse Instr} {bytes : α → List Byte} {ok : α → Prop}
    (hp : ∀ {a bs rest}, p bs = .ok (a, rest) → ok a ∧ bs = bytes a ++ rest)
    (hk : ∀ a, ok a → ReadsOnlyEncodings selector (pre ++ bytes a) (k a)) :
    ReadsOnlyEncodings selector pre (p >>= k) := by
  constructor
  intro bs ins rest h
  obtain ⟨a, mid, ha, hrest⟩ := Parse.bind_cases h
  obtain ⟨hok, rfl⟩ := hp ha
  obtain ⟨hwf, more, rfl, henc⟩ := (hk a hok).encoded hrest
  exact ⟨hwf, bytes a ++ more, (List.append_assoc ..).symm, by rw [henc, List.append_assoc]⟩

theorem pure {ins : Instr} (hwf : ins.wellFormed = true) (henc : encode ins = encodeOp selector pre) :
    ReadsOnlyEncodings selector pre (Pure.pure ins) := by
  constructor
  rintro _ _ _ ⟨⟩
  exact ⟨hwf, [], rfl, by rw [henc, List.append_nil]⟩

theorem throw (e : DecodeError) : ReadsOnlyEncodings selector pre (MonadExcept.throw e) := by
  constructor
  rintro _ _ _ ⟨⟩

/-- One more operand, of which every value is well formed. -/
theorem bindTotal {p : Parse α} {k : α → Parse Instr} {bytes : α → List Byte}
    (hp : ∀ {a bs rest}, p bs = .ok (a, rest) → bs = bytes a ++ rest)
    (hk : ∀ a, ReadsOnlyEncodings selector (pre ++ bytes a) (k a)) : ReadsOnlyEncodings selector pre (p >>= k) :=
  bind (ok := fun _ => True) (fun h => ⟨trivial, hp h⟩) fun a _ => hk a

theorem inst {k : Inst → Parse Instr} (hk : ∀ i, ReadsOnlyEncodings selector (pre ++ i.bytes) (k i)) :
    ReadsOnlyEncodings selector pre (getInst >>= k) :=
  bindTotal getInst_cases hk

theorem flag {k : Bool → Parse Instr} (hk : ∀ b, ReadsOnlyEncodings selector (pre ++ flagBytes b) (k b)) :
    ReadsOnlyEncodings selector pre (getFlag >>= k) :=
  bindTotal getFlag_cases hk

theorem word {k : Word → Parse Instr} (hk : ∀ w, ReadsOnlyEncodings selector (pre ++ leBytes 4 w.toNat) (k w)) :
    ReadsOnlyEncodings selector pre (getWord >>= k) :=
  bindTotal (bytes := fun w => leBytes 4 w.toNat) getWord_cases hk

theorem half {k : Half → Parse Instr} (hk : ∀ w, ReadsOnlyEncodings selector (pre ++ leBytes 2 w.toNat) (k w)) :
    ReadsOnlyEncodings selector pre (getHalf >>= k) :=
  bindTotal (bytes := fun w => leBytes 2 w.toNat) getHalf_cases hk

theorem nat {n : Nat} {k : Nat → Parse Instr}
    (hk : ∀ m, m < 256 ^ n → ReadsOnlyEncodings selector (pre ++ leBytes n m) (k m)) :
    ReadsOnlyEncodings selector pre (getNat n >>= k) :=
  bind getNat_cases hk

theorem timing {k : Timing → Parse Instr}
    (hk : ∀ t, t.wellFormed = true → ReadsOnlyEncodings selector (pre ++ t.bytes) (k t)) :
    ReadsOnlyEncodings selector pre (getTiming >>= k) :=
  bind getTiming_cases hk

theorem byteList {n : Nat} {k : List Byte → Parse Instr}
    (hk : ∀ l, l.length = n → ReadsOnlyEncodings selector (pre ++ l) (k l)) :
    ReadsOnlyEncodings selector pre (getBytes n >>= k) :=
  bind getBytes_cases hk

/-- A filter operation ends in its FIFO number and its enable flag. -/
theorem fifoAndEnable {bank : Nat} (hbank : bank < 256 ^ 1) {op : Nat → Bool → Instr}
    (hwf : ∀ fifoId enable, (op fifoId enable).wellFormed = bankWellFormed bank fifoId)
    (henc : ∀ fifoId enable,
      encode (op fifoId enable) = encodeOp selector (pre ++ leBytes 1 fifoId ++ flagBytes enable)) :
    ReadsOnlyEncodings selector pre
      (getNat 1 >>= fun fifoId => getFlag >>= fun enable => Pure.pure (op fifoId enable)) :=
  nat fun _ hfifo => flag fun _ =>
    pure ((hwf ..).trans ((bankWellFormed_iff ..).2 ⟨hbank, hfifo⟩)) (henc ..)

end Parse.ReadsOnlyEncodings

/-- Whatever an operation's bytes are read as is well formed, and the bytes read are its encoding. -/
theorem getOperation_cases {ins : Instr} {bs rest : List Byte} (h : getOperation bs = .ok (ins, rest)) :
    ins.wellFormed = true ∧ (encode ins).fmt = .operation ∧ bs = (encode ins).bytes ++ rest := by
  obtain ⟨sel, mid, hsel, hops⟩ := Parse.bind_cases h
  suffices hfin : Parse.ReadsOnlyEncodings sel [] _ by
    obtain ⟨hwf, more, rfl, henc⟩ := hfin.encoded hops
    cases bs with
    | nil => cases hsel
    | cons b tl =>
      cases hsel
      exact ⟨hwf, by rw [henc]; rfl, by rw [henc]; rfl⟩
  clear hops hsel h
  generalize hn : sel.toNat = n
  obtain rfl : sel = BitVec.ofNat 8 n := by rw [← hn, BitVec.ofNat_toNat, BitVec.setWidth_eq]
  clear hn
  split
  case h_10 => -- computeTiming
    exact .nat fun _ hrate => .nat fun _ hsp => .nat fun _ hpclk =>
      .pure ((Instr.wellFormed_opComputeTiming ..).2 ⟨hrate, hsp, hpclk⟩) rfl
  case h_11 => -- applyTiming
    exact .inst fun _ => .timing fun _ ht => .pure ht rfl
  case h_12 => -- getEffectiveBitrate
    exact .timing fun _ ht => .nat fun _ hpclk =>
      .pure ((Instr.wellFormed_opGetEffectiveBitrate ..).2 ⟨ht, hpclk⟩) rfl
  case h_13 => -- configureFilter
    exact .inst fun _ => .nat fun _ hbank => .flag fun _ => .flag fun _ => .word fun _ => .word fun _ =>
      .fifoAndEnable hbank (fun _ _ => rfl) fun _ _ => rfl
  case h_14 | h_16 => -- filterIdMask16, filterIdList16
    exact .inst fun _ => .nat fun _ hbank => .half fun _ => .half fun _ => .half fun _ => .half fun _ =>
      .fifoAndEnable hbank (fun _ _ => rfl) fun _ _ => rfl
  case h_15 | h_17 => -- filterIdMask32, filterIdList32
    exact .inst fun _ => .nat fun _ hbank => .word fun _ => .word fun _ =>
      .fifoAndEnable hbank (fun _ _ => rfl) fun _ _ => rfl
  case h_19 => -- transmit
    refine .inst fun _ => .word fun _ => .flag fun _ => .flag fun _ => .nat fun _ hlength => .nat fun _ hcount =>
      .byteList fun _ hdata => ?_
    subst hdata
    split
    · exact .throw _
    · next hle => exact .pure ((payloadWellFormed_iff ..).2 ⟨hlength, hcount, Nat.le_of_not_lt hle⟩) rfl
  case h_21 => -- receive
    exact .inst fun _ => .nat fun _ hfifo => .flag fun _ => .pure ((Instr.wellFormed_opReceive ..).2 hfifo) rfl
  case h_22 => -- releaseFifo
    exact .inst fun _ => .nat fun _ hfifo => .pure ((Instr.wellFormed_opReleaseFifo ..).2 hfifo) rfl
  case h_23 => -- a selector outside the table
    exact .throw _
  -- an operation whose operand is the controller alone
  all_goals exact .inst fun _ => .pure rfl rfl

/-! ## Every instruction is an access or an operation -/

theorem encode_rd (r : Reg) (i : Inst) : encode (Instr.rd r i) = encodeRead r i := by
  cases r with
  | fr b k => fin_cases b <;> cases k <;> rfl
  | rfr x | tir x | tdtr x | tdlr x | tdhr x | rir x | rdtr x | rdlr x | rdhr x => cases x <;> rfl
  | _ => rfl

theorem encode_wr (r : Reg) (i : Inst) (v : Word) : encode (Instr.wr r i v) = encodeWrite r i v := by
  cases r with
  | fr b k => fin_cases b <;> cases k <;> rfl
  | rfr x | tir x | tdtr x | tdlr x | tdhr x | rir x | rdtr x | rdlr x | rdhr x => cases x <;> rfl
  | _ => rfl

/-- An instruction reads a register, writes a register, or is encoded as an operation; which of the three, and for
which register, is written in its row of the encoder. -/
theorem Instr.access_or_operation (ins : Instr) :
    (∃ r i, encode ins = encodeRead r i ∧ ins = .rd r i) ∨
      (∃ r i v, encode ins = encodeWrite r i v ∧ ins = .wr r i v) ∨ (encode ins).fmt = .operation := by
  cases ins <;> unfold encode <;> first
    | exact .inl ⟨_, _, by with_reducible rfl, rfl⟩
    | exact .inr (.inl ⟨_, _, _, by with_reducible rfl, rfl⟩)
    | exact .inr (.inr rfl)

/-- An access has no operand that could be out of range. -/
theorem Instr.wellFormed_of_access {ins : Instr} (h : (encode ins).fmt = .access) : ins.wellFormed = true := by
  cases ins <;> first
    | rfl
    | cases h

/-- W of a read is clear, and a read has no data (R150). -/
theorem Access.read_write_bit (i : Inst) (r : Reg) :
    (Access.read i r).word.getLsbD 10 = (Access.read i r).data.isSome := by
  have hr := r.offset_lt
  exact (accessWord_fields false r.offset (by omega)).2.1

/-- W of a write is set, and a write has its data (R150). -/
theorem Access.write_write_bit (i : Inst) (r : Reg) (v : Word) :
    (Access.write i r v).word.getLsbD 10 = (Access.write i r v).data.isSome := by
  have hr := r.offset_lt
  exact (accessWord_fields true r.offset (by omega)).2.1

theorem decode_access {c : HostCode} {a : Access} {rest : List Byte} (hfmt : c.fmt = .access)
    (h : getAccess c.bytes = .ok (a, rest)) : decode c = a.decode := by
  simp only [decode, hfmt, h]

theorem decode_operation {c : HostCode} {ins : Instr} {rest : List Byte} (hfmt : c.fmt = .operation)
    (h : getOperation c.bytes = .ok (ins, rest)) : decode c = .ok ins := by
  simp only [decode, hfmt, h]

/-- Settles O2: an access is read back and its word selects its register again; an operation's operands are read back
one by one. -/
theorem decodeInvertsEncode : Obligations.DecodeInvertsEncode := by
  intro ins extra hwf
  rcases ins.access_or_operation with ⟨r, i, henc, rfl⟩ | ⟨r, i, v, henc, rfl⟩ | hop
  · rw [henc, decode_access rfl (getAccess_bytes (Access.read_write_bit i r) extra), Access.decode_readReg]
  · rw [henc, decode_access rfl (getAccess_bytes (Access.write_write_bit i r v) extra), Access.decode_writeReg]
  · obtain ⟨more, hbytes, hread⟩ := (getOperation_readsBack hop hwf).readsRest
    rw [hbytes]
    exact decode_operation hop (hread extra)

/-- What decodes was read as an access or as an operation. -/
theorem decode_cases {c : HostCode} {ins : Instr} (h : decode c = .ok ins) :
    (∃ a rest, c.fmt = .access ∧ getAccess c.bytes = .ok (a, rest) ∧ a.decode = .ok ins) ∨
      ∃ rest, c.fmt = .operation ∧ getOperation c.bytes = .ok (ins, rest) := by
  unfold decode at h
  split at h
  · next hfmt =>
    split at h
    · next a rest ha => exact .inl ⟨a, rest, hfmt, ha, h⟩
    · cases h
  · next hfmt =>
    split at h
    · next rest hop => cases h; exact .inr ⟨rest, hfmt, hop⟩
    · cases h

/-- Settles O3: an access was read from its bytes and is the access of the instruction it decodes to; an operation was
read from its selector and the bytes of its operands. -/
theorem decodedBytesAreTheEncoding : Obligations.DecodedBytesAreTheEncoding := by
  intro c ins h
  rcases decode_cases h with ⟨a, rest, hfmt, ha, hdec⟩ | ⟨rest, hfmt, hop⟩
  · obtain ⟨hW, hbytes⟩ := getAccess_cases ha
    have henc : encode ins = { fmt := .access, bytes := a.bytes } := by
      obtain ⟨r, i, ⟨rfl, rfl⟩ | ⟨v, rfl, rfl⟩⟩ := Access.decode_cases hW hdec
      · exact encode_rd r i
      · exact encode_wr r i v
    rw [hbytes, hfmt]
    have hfmt' : (encode ins).fmt = .access := by rw [henc]
    exact ⟨Instr.wellFormed_of_access hfmt', hfmt', by rw [henc]; exact List.prefix_append ..⟩
  · obtain ⟨hwf, hfmt', hbytes⟩ := getOperation_cases hop
    exact ⟨hwf, hfmt'.trans hfmt.symm, hbytes ▸ List.prefix_append ..⟩

/-- Settles O1: the fourteen words are decoded. -/
theorem tableWordSamplesDecode : Obligations.TableWordSamplesDecode := by
  unfold Obligations.TableWordSamplesDecode
  decide +kernel

/-! ## The table of R151 -/

/-- The read and the write at a register's offset are that register's. -/
theorem Access.decode_atOffset (i : Inst) (v : Word) (r : Reg) :
    Access.decode { inst := i, word := BitVec.ofNat 11 r.offset, width := .w32, data := none } = .ok (Instr.rd r i) ∧
    Access.decode { inst := i, word := BitVec.ofNat 11 (0x400 + r.offset), width := .w32, data := some v }
      = .ok (Instr.wr r i v) := by
  have hread := Access.decode_readReg i r
  rw [Access.read, Reg.accessWord, if_neg Bool.false_ne_true, Nat.zero_add] at hread
  exact ⟨hread, Access.decode_writeReg i r v⟩

/-- Settles O4: each offset of the table is its register's. -/
theorem offsetsSelectRegisters : Obligations.OffsetsSelectRegisters := by
  intro i v selects
  have hsel : ∀ r : Reg, selects r.offset r := Access.decode_atOffset i v
  have hr2 : ∀ b : Fin 28, 0x244 + 8 * b.val = (Reg.fr b .r2).offset := fun b => by
    simp only [Reg.offset, WordIx.toNat]; omega
  exact ⟨hsel .mcr, hsel .msr, hsel .tsr, hsel (.rfr .f0), hsel (.rfr .f1), hsel .ier, hsel .esr, hsel .btr,
    fun x => ⟨hsel (.tir x), hsel (.tdtr x), hsel (.tdlr x), hsel (.tdhr x)⟩,
    fun x => ⟨hsel (.rir x), hsel (.rdtr x), hsel (.rdlr x), hsel (.rdhr x)⟩,
    hsel .fmr, hsel .fm1r, hsel .fs1r, hsel .ffa1r, hsel .fa1r,
    fun b => ⟨hsel (.fr b .r1), hr2 b ▸ hsel (.fr b .r2)⟩⟩

/-! ## Selectors outside the table (R154) -/

theorem getOperation_unknownSelector {selector : Byte}
    (h : selector.toNat ∉ [0x00, 0x01, 0x02, 0x03, 0x04, 0x05, 0x06, 0x07, 0x08, 0x20, 0x21, 0x22, 0x40, 0x41, 0x42,
      0x43, 0x44, 0x60, 0x61, 0x62, 0x80, 0x81]) (operands : List Byte) :
    getOperation (selector :: operands) = .error (.unknownSelector selector) := by
  unfold getOperation
  rw [Parse.bind_ok (getByte_cons ..)]
  generalize selector.toNat = n at h ⊢
  split
  case h_23 => rfl
  all_goals exact absurd (by decide) h

end Sys2Proof

namespace Sys2Proof.Machine

/-- Settles O8: the reader of operations rejects the selector by name, before any operand. -/
theorem unknownSelectorsAreRefused : Obligations.UnknownSelectorsAreRefused := by
  intro s selector operands h
  have hdec : decode { fmt := .operation, bytes := selector :: operands } = .error (.unknownSelector selector) := by
    simp only [decode, getOperation_unknownSelector h]
  simp only [runRequest, issueDecoded, hdec, decodeFailure]

/-! ## Reserved offsets (R152) -/

theorem reservedAt_lt {p : Params} {i : Inst} {off : Nat} (h : reservedAt p i off) : off < 0x400 := by
  unfold reservedAt at h
  omega

/-- A register at a reserved offset is a filter register that is not decoded: its bank does not exist, or the filter
block is in the other window. -/
theorem decodedIn_of_reservedAt {p : Params} {i : Inst} {r : Reg} (h : reservedAt p i r.offset) :
    decodedIn p i r = false := by
  unfold reservedAt at h
  cases r with
  | mcr | msr | tsr | ier | esr | btr => simp only [Reg.offset] at h; omega
  | rfr x | tir x | tdtr x | tdlr x | tdhr x | rir x | rdtr x | rdlr x | rdhr x =>
    cases x <;> simp only [Reg.offset, MbIx.toNat, FifoIx.toNat] at h <;> omega
  | fmr | fm1r | fs1r | ffa1r | fa1r =>
    have howner : filterOwner p ≠ i := fun ho => by
      simp only [Reg.offset, ho, ne_eq, not_true, and_false, or_false] at h
      omega
    exact beq_false_of_ne howner
  | fr b k =>
    by_cases howner : filterOwner p = i
    · have hb : p.nbanks.toNat ≤ b.val := by
        cases k <;> simp only [Reg.offset, WordIx.toNat, howner, ne_eq, not_true, and_false, or_false] at h <;> omega
      simp [decodedIn, hb]
    · simp [decodedIn, howner]

theorem checkAccess_undecoded {s : State} {a : Access} {r : Reg} (hi : hasInst s.params a.inst = true)
    (hr : (s.can a.inst).resetAsserted = false) (hd : decodedIn s.params a.inst r = false) :
    checkAccess s a r = some (.reservedOffset (.access a)) := by
  simp [checkAccess, hi, hr, hd]

theorem readInstr_stopped {s : State} {i : Inst} {r : Reg} {f : Fault} (h : checkAccess s (.read i r) r = some f) :
    readInstr i r s = .fault f := by
  have hread : regRead i r s = .error (.fault f) := by simp only [regRead, h]
  simp only [readInstr, finish, Prog.bind_stop hread]

theorem writeInstr_stopped {s : State} {i : Inst} {r : Reg} {v : Word} {f : Fault}
    (h : checkAccess s (.write i r v) r = some f) : writeInstr i r v s = .fault f := by
  have hwrite : regWrite i r (.ofWord v) s = .error (.fault f) := by simp only [regWrite, BusWord.ofWord_whole, h]
  simp only [writeInstr, finish, Prog.bind_stop hwrite]

theorem Access.decode_noRegister {a : Access} (hw : a.width = .w32) (hal : a.word.extractLsb' 0 2 = 0)
    (h : Reg.ofOffset? (a.word.extractLsb' 0 10).toNat = none) : a.decode = .error (.reservedOffset a) := by
  rw [Access.decode, if_pos ⟨hw, hal⟩]
  simp only [h]

/-- Settles O6: where no register is, the decoder rejects the access; where one is, it is a filter register that the
access's own check finds undecoded. -/
theorem reservedOffsetsFault : Obligations.ReservedOffsetsFault := by
  intro s i off w hi hr h4 hres a
  have hlt := reservedAt_lt hres
  cases hreg : Reg.ofOffset? off with
  | none =>
    obtain ⟨hoff, -, -⟩ := accessWord_fields w.isSome off hlt
    rw [Access.decode_noRegister rfl ((accessWord_aligned_iff w.isSome hlt).2 h4)
      ((congrArg Reg.ofOffset? hoff).trans hreg)]
    exact stoppedAccess_of_open hi hr _
  | some r =>
    obtain rfl := Reg.offset_of_ofOffset? h4 hreg
    have hd := decodedIn_of_reservedAt hres
    cases w with
    | none =>
      change runDecoded (Access.read i r).decode s = .fault (.reservedOffset (.access (.read i r)))
      rw [Access.decode_readReg]
      exact (exec_rd r i s).trans (readInstr_stopped (checkAccess_undecoded hi hr hd))
    | some v =>
      change runDecoded (Access.write i r v).decode s = .fault (.reservedOffset (.access (.write i r v)))
      rw [Access.decode_writeReg]
      exact (exec_wr r i v s).trans (writeInstr_stopped (checkAccess_undecoded hi hr hd))

/-! ## Identifier words (R156 to R159) -/

theorem Frame.w32_standard {f : Frame} {id : BitVec 11} (h : f.id = .standard id) :
    f.w32 = fieldAt id 21 ||| flagAt f.rtr 1 := by
  simp only [Frame.w32, h]

theorem Frame.w32_extended {f : Frame} {id : BitVec 29} (h : f.id = .extended id) :
    f.w32 = (fieldAt id 3 ||| flagAt true 2) ||| flagAt f.rtr 1 := by
  simp only [Frame.w32, h]
  rfl

/-- The fields of a standard frame's identifier word. -/
theorem Frame.w32_standard_fields {f : Frame} {id : BitVec 11} (h : f.id = .standard id) :
    f.w32.extractLsb' 21 11 = id ∧ f.w32.getLsbD 2 = false ∧ f.w32.extractLsb' 3 18 = 0 := by
  rw [Frame.w32_standard h]
  refine ⟨?_, ?_, ?_⟩
  · rw [BitVec.extractLsb'_or, extractLsb'_fieldAt_same _ _ (by decide),
      extractLsb'_flagAt _ _ _ _ (by decide) (by decide)]
    exact BitVec.or_zero
  · simp [BitVec.getLsbD_or, getLsbD_flagAt, -BitVec.getLsbD_eq_getElem]
  · rw [BitVec.extractLsb'_or, extractLsb'_fieldAt_other _ _ _ _ (by decide),
      extractLsb'_flagAt _ _ _ _ (by decide) (by decide)]
    exact BitVec.or_zero

theorem Frame.w32_extended_fields {f : Frame} {id : BitVec 29} (h : f.id = .extended id) :
    f.w32.extractLsb' 3 29 = id ∧ f.w32.getLsbD 2 = true := by
  rw [Frame.w32_extended h]
  refine ⟨?_, ?_⟩
  · rw [BitVec.extractLsb'_or, BitVec.extractLsb'_or, extractLsb'_fieldAt_same _ _ (by decide),
      extractLsb'_flagAt _ _ _ _ (by decide) (by decide), extractLsb'_flagAt _ _ _ _ (by decide) (by decide)]
    exact BitVec.or_zero.trans BitVec.or_zero
  · simp [BitVec.getLsbD_or, getLsbD_flagAt, -BitVec.getLsbD_eq_getElem]

theorem Frame.w32_flags (f : Frame) : f.w32.getLsbD 1 = f.rtr ∧ f.w32.getLsbD 0 = false := by
  cases h : f.id with
  | standard id => simp [Frame.w32_standard h, -BitVec.getLsbD_eq_getElem]
  | extended id => simp [Frame.w32_extended h, -BitVec.getLsbD_eq_getElem]

/-- The identifier is read back from its word (R156). -/
theorem idOf_w32 (f : Frame) : idOf (f.w32.getLsbD 2) f.w32 = f.id := by
  cases h : f.id with
  | standard id =>
    obtain ⟨hid, hide, -⟩ := Frame.w32_standard_fields h
    rw [hide, idOf, if_neg Bool.false_ne_true, hid]
  | extended id =>
    obtain ⟨hid, hide⟩ := Frame.w32_extended_fields h
    rw [hide, idOf, if_pos rfl, hid]

/-- The 16-bit word's fields are those of the 32-bit word (R157). -/
theorem Frame.w16_fields (f : Frame) : f.w16.extractLsb' 5 11 = f.w32.extractLsb' 21 11 ∧
    f.w16.getLsbD 4 = f.w32.getLsbD 1 ∧ f.w16.getLsbD 3 = f.w32.getLsbD 2 ∧
    f.w16.extractLsb' 0 3 = f.w32.extractLsb' 18 3 := by
  refine ⟨BitVec.eq_of_getLsbD_eq fun j hj => ?_, ?_, ?_, BitVec.eq_of_getLsbD_eq fun j hj => ?_⟩ <;>
    simp only [Frame.w16, BitVec.getLsbD_extractLsb', BitVec.getLsbD_append]
  · rw [if_neg (by omega), if_neg (by omega), if_neg (by omega), show 5 + j - 3 - 1 - 1 = j by omega]
    simp [hj, -BitVec.getLsbD_eq_getElem]
  · simp [-BitVec.getLsbD_eq_getElem]
  · simp [-BitVec.getLsbD_eq_getElem]
  · rw [Nat.zero_add, if_pos hj]
    simp [hj]

/-- TIxR holds the word without its bit 0, which is 0. -/
theorem Frame.tir_holds_w32 (f : Frame) : fieldAt (f.w32.extractLsb' 1 31) 1 = f.w32 := by
  apply BitVec.eq_of_getLsbD_eq
  intro j hj
  rw [getLsbD_fieldAt, BitVec.getLsbD_extractLsb']
  cases j with
  | zero => simp [f.w32_flags.2, -BitVec.getLsbD_eq_getElem]
  | succ j =>
    rw [Nat.add_sub_cancel, Nat.add_comm 1 j]
    simp [hj, show j < 31 by omega, -BitVec.getLsbD_eq_getElem]

theorem unpack8_pack (d : Vector Byte 8) : unpack8 (packLow d) (packHigh d) = d := by
  obtain ⟨l0, l1, l2, l3⟩ := unpackByte_pack4 d[0] d[1] d[2] d[3]
  obtain ⟨h0, h1, h2, h3⟩ := unpackByte_pack4 d[4] d[5] d[6] d[7]
  simp only [unpack8, packLow, packHigh, l0, l1, l2, l3, h0, h1, h2, h3]
  ext k hk
  match k with
  | 0 | 1 | 2 | 3 | 4 | 5 | 6 | 7 => rfl

/-- Settles O38: from the fields of the two identifier words and the bytes of a packed word. -/
theorem identifierWordsDecodeBack : Obligations.IdentifierWordsDecodeBack := by
  intro f m
  obtain ⟨hrtr, hzero⟩ := f.w32_flags
  obtain ⟨hid, h4, h3, hlow⟩ := f.w16_fields
  refine ⟨fun _ => Frame.w32_standard_fields, fun _ => Frame.w32_extended_fields, hrtr, hzero,
    ⟨hid, h4.trans hrtr, h3, hlow⟩, ?_, fun k => ?_⟩
  · simp only [Mailbox.frame, Frame.tir_holds_w32, idOf_w32, hrtr, unpack8_pack]
  · obtain ⟨l0, l1, l2, l3⟩ := unpackByte_pack4 f.data[0] f.data[1] f.data[2] f.data[3]
    obtain ⟨h0, h1, h2, h3⟩ := unpackByte_pack4 f.data[4] f.data[5] f.data[6] f.data[7]
    match k with
    | 0 => exact ⟨l0, h0⟩
    | 1 => exact ⟨l1, h1⟩
    | 2 => exact ⟨l2, h2⟩
    | 3 => exact ⟨l3, h3⟩

end Sys2Proof.Machine

/-! PROOFS. The mode controller (40_mode_controller.md): the two registers MCR and MSR, the mode state machine, the
request and query operations, the polling of the blocking calls, and the reset operation. -/

namespace Sys2Proof.Machine

/-! ## The mode state machine (R204 to R209) -/

/-- The mode the requests of MCR ask for (R204): Init before Sleep (R209), and Normal without a request. -/
def Mcr.requestedMode (m : Mcr) : Mode := if m.inrq then .init else if m.sleep then .sleep else .normal

theorem modeTarget_eq (c : Controller) :
    modeTarget c = if c.mode = c.mcr.requestedMode then none else some c.mcr.requestedMode := by
  unfold modeTarget Mcr.requestedMode
  cases c.mcr.inrq <;> cases c.mcr.sleep <;> cases c.mode <;> rfl

theorem agentStep_modeFsm_of_reset {s : State} {i : Inst} (h : (s.can i).resetAsserted = true) :
    agentStep (.modeFsm i) s = s := by
  simp [agentStep, AgentStep.enabled, AgentStep.ready, AgentStep.inst, h]

/-- In the mode its requests ask for, the mode state machine does not step. -/
theorem agentStep_modeFsm_stays {s : State} {i : Inst} (h : (s.can i).mode = (s.can i).mcr.requestedMode) :
    agentStep (.modeFsm i) s = s := by
  have hnone : modeTarget (s.can i) = none := by rw [modeTarget_eq, if_pos h]
  simp [agentStep, AgentStep.enabled, AgentStep.ready, AgentStep.inst, hnone]

/-- In any other mode it goes to the one its requests ask for. -/
theorem agentStep_modeFsm_moves {s : State} {i : Inst} (hi : hasInst s.params i = true)
    (hr : (s.can i).resetAsserted = false) (h : (s.can i).mode ≠ (s.can i).mcr.requestedMode) :
    agentStep (.modeFsm i) s = s.setCan i ((s.can i).enterMode (s.can i).mcr.requestedMode) := by
  have hsome : modeTarget (s.can i) = some (s.can i).mcr.requestedMode := by rw [modeTarget_eq, if_neg h]
  simp [agentStep, AgentStep.enabled, AgentStep.ready, AgentStep.inst, AgentStep.perform, hi, hr, hsome]

/-- SLAKI after a change to Init or Normal: kept, but cleared when Sleep is left (R207). -/
theorem Controller.slaki_leaving (c : Controller) :
    (if c.mode = .sleep then false else c.slaki) = (c.slaki && decide (c.mode ≠ .sleep)) := by
  by_cases h : c.mode = .sleep <;> simp [h]

/-- Settles O16: the requests name one mode; the machine stays there, and from elsewhere enters it. -/
theorem modeFsmFollowsTheRequestTable : Obligations.ModeFsmFollowsTheRequestTable := by
  intro s i hi c s'
  refine ⟨agentStep_modeFsm_of_reset, fun hr => ?_⟩
  have hstay (m : Mode) (hreq : c.mcr.requestedMode = m) (hm : c.mode = m) : s' = s :=
    agentStep_modeFsm_stays (hm.trans hreq.symm)
  have hmove (m : Mode) (hreq : c.mcr.requestedMode = m) (hm : c.mode ≠ m) : s' = s.setCan i (c.enterMode m) := by
    rw [← hreq]
    exact agentStep_modeFsm_moves hi hr fun h => hm (h.trans hreq)
  have hinit (hq : c.mcr.inrq = true) : c.mcr.requestedMode = .init := by simp [Mcr.requestedMode, hq]
  have hsleep (hq : c.mcr.inrq = false) (hs : c.mcr.sleep = true) : c.mcr.requestedMode = .sleep := by
    simp [Mcr.requestedMode, hq, hs]
  have hnormal (hq : c.mcr.inrq = false) (hs : c.mcr.sleep = false) : c.mcr.requestedMode = .normal := by
    simp [Mcr.requestedMode, hq, hs]
  refine ⟨fun hq hm => hstay _ (hinit hq) hm, fun hq hm => ?_, fun hq hs hm => hstay _ (hsleep hq hs) hm,
    fun hq hs hm => hmove _ (hsleep hq hs) hm, fun hq hs hm => hstay _ (hnormal hq hs) hm, fun hq hs hm => ?_⟩
  · rw [hmove _ (hinit hq) hm, Controller.enterMode, Controller.slaki_leaving]
  · rw [hmove _ (hnormal hq hs) hm, Controller.enterMode, Controller.slaki_leaving]

/-! ## MCR and MSR (R200 to R203) -/

/-- Settles O14: the word read is the register's read rule, whose defined bits are the fields. -/
theorem mcrAndMsrReadTheirFields : Obligations.McrAndMsrReadTheirFields := by
  intro s i h
  refine ⟨⟨_, exec_rd_ok (r := .mcr) h, ?_⟩, ⟨_, exec_rd_ok (r := .msr) h, ?_⟩⟩
  · simp only [← BusWord.bit_eq_word, readRule, readMcr_bit0, readMcr_bit1, readMcr_bit2, readMcr_bit3, readMcr_bit4,
      readMcr_bit5, readMcr_bit6, readMcr_bit7, readMcr_bit15, readMcr_bit16, true_and]
    rfl
  · simp only [← BusWord.bit_eq_word, readRule, readMsr_bit0, readMsr_bit1, readMsr_bit2, readMsr_bit3, readMsr_bit4,
      Controller.inak, Controller.slak, true_and]
    rfl

/-- Settles O15: the write rules of the two registers. -/
theorem mcrAndMsrWrites : Obligations.McrAndMsrWrites := by
  intro s i v h
  refine ⟨fun h15 => exec_wr_ok (r := .mcr) h ?_, fun h15 => exec_wr_refused (r := .mcr) h ?_,
    exec_wr_ok (r := .msr) h ?_⟩
  · simp only [writeRule, writeMcr, BusWord.ofWord_bit, h15, Bool.false_eq_true, if_false, Except.map]
  · simp only [writeRule, writeMcr, BusWord.ofWord_bit, h15, if_true, Except.map]
  · simp only [writeRule, writeMsr, BusWord.ofWord_bit]

/-! ## Requests and queries (R211 to R216) -/

/-- `enterSleep` sets SLEEP in the MCR it read (R213). -/
theorem enterSleepProg_ok {s : State} {i : Inst} (h : accessible s i .mcr = true) :
    enterSleepProg atOnce i s = .ok ((), (afterGap (s.takeDraws 1)).setCan i
      { (afterGap (s.takeDraws 1)).can i with mcr := { (s.can i).mcr with sleep := true } }) := by
  rw [enterSleepProg, rmw_mcr s i _ _ h (by decide)]
  simp

/-- `leaveSleep` clears SLEEP in the MCR it read (R214). -/
theorem leaveSleepProg_ok {s : State} {i : Inst} (h : accessible s i .mcr = true) :
    leaveSleepProg atOnce i s = .ok ((), (afterGap (s.takeDraws 1)).setCan i
      { (afterGap (s.takeDraws 1)).can i with mcr := { (s.can i).mcr with sleep := false } }) := by
  rw [leaveSleepProg, rmw_mcr s i _ _ h (by decide)]
  simp

/-- Settles O17: each request is a read-modify-write of MCR. -/
theorem modeRequestsRewriteOneMcrBit : Obligations.ModeRequestsRewriteOneMcrBit :=
  fun _ _ h => ⟨runUnit_ok (enterInitProg_ok h), runUnit_ok (leaveInitProg_ok h), runUnit_ok (enterSleepProg_ok h),
    runUnit_ok (leaveSleepProg_ok h)⟩

/-- An operation that asks one register for a Boolean and is let through. -/
theorem runFlag_read_ok {s : State} {i : Inst} {r : Reg} (f : BusWord → Bool) (h : accessible s i r = true) :
    runFlag (do let v ← regRead i r; pure (f v)) s
      = .next ((s.takeDraws 1).returning (.flag (f (readRule s i (Config.draw s.draws) r)))) :=
  runFlag_ok (by rw [Prog.bind_ok (regRead_ok h)]; rfl)

theorem exec_opIsInit_ok {s : State} {i : Inst} (h : accessible s i .msr = true) :
    exec (.opIsInit i) s = .next ((s.takeDraws 1).returning (.flag (s.can i).inak)) := by
  rw [← readMsr_bit0]
  exact runFlag_read_ok (BusWord.bit · 0) h

theorem exec_opIsSleep_ok {s : State} {i : Inst} (h : accessible s i .msr = true) :
    exec (.opIsSleep i) s = .next ((s.takeDraws 1).returning (.flag (s.can i).slak)) := by
  rw [← readMsr_bit1]
  exact runFlag_read_ok (BusWord.bit · 1) h

/-- Settles O18: INAK and SLAK of one read of MSR. -/
theorem modeQueriesReadTheMode : Obligations.ModeQueriesReadTheMode :=
  fun _ _ h => ⟨exec_opIsInit_ok h, exec_opIsSleep_ok h⟩

/-! ## Polling (R217, R218) -/

/-- Polling keeps what a read's draw and a gap keep. -/
theorem pollLoop_keeps {I : State → Prop} (hdraw : ∀ s, I s → I (s.takeDraws 1)) (hgap : ∀ s, I s → I (afterGap s))
    (i : Inst) (want : Bool) : ∀ n, (pollLoop i want n).Keeps I
  | 0 => .pure _
  | n + 1 => by
    have hread : (regRead i .msr).Keeps I := ⟨fun s w s' hs h => by
      obtain ⟨-, -, rfl⟩ := regRead_cases h
      exact hdraw s hs⟩
    refine Prog.Keeps.bind ⟨fun s u s' hs h => by cases h; exact hgap s hs⟩ fun _ => hread.bind fun v => ?_
    split
    · exact .pure _
    · exact pollLoop_keeps hdraw hgap i want n

/-- What polling leaves alone: the initialization request, the reset line, the parameters, the filter block and the
host's program. -/
theorem pollLoop_frame {s t : State} {i : Inst} {want b : Bool} {n : Nat} (h : pollLoop i want n s = .ok (b, t)) :
    (t.can i).mcr.inrq = (s.can i).mcr.inrq ∧ (t.can i).resetAsserted = (s.can i).resetAsserted ∧
      t.params = s.params ∧ t.filter = s.filter ∧ t.program = s.program :=
  (pollLoop_keeps (I := fun m => (m.can i).mcr.inrq = (s.can i).mcr.inrq ∧
      (m.can i).resetAsserted = (s.can i).resetAsserted ∧ m.params = s.params ∧ m.filter = s.filter ∧
      m.program = s.program) (fun m hm => by simpa using hm) (fun m hm => by simpa using hm) i want n).kept
    s b t ⟨rfl, rfl, rfl, rfl, rfl⟩ h

/-- Polling of a window that is let through ends with an answer. It is `true` only when the last read saw what was
wanted, and `false` after at least one read only when that read did not. -/
theorem pollLoop_answers {i : Inst} (want : Bool) (n : Nat) {s : State} (ha : accessible s i .msr = true) :
    ∃ b t, pollLoop i want n s = .ok (b, t) ∧ (b = true → (t.can i).inak = want) ∧
      (b = false → 0 < n → (t.can i).inak ≠ want) := by
  induction n generalizing s with
  | zero => exact ⟨false, s, rfl, nofun, fun _ h => absurd h (Nat.lt_irrefl 0)⟩
  | succ n ih =>
    rw [pollLoop_succ want n ha]
    by_cases hm : ((afterGap s).can i).inak = want
    · exact ⟨true, _, if_pos hm, fun _ => by simpa using hm, nofun⟩
    · obtain ⟨b, t, ht, hseen, hunseen⟩ := ih (s := (afterGap s).takeDraws 1) (by simpa using ha)
      refine ⟨b, t, by rw [if_neg hm, ht], hseen, fun hb _ => ?_⟩
      cases n with
      | zero => cases ht; simpa using hm
      | succ n => exact hunseen hb n.succ_pos

/-- Without agent steps to come, the first read decides. -/
theorem pollLoop_quiet {s : State} {i : Inst} (want : Bool) (n : Nat) (ha : accessible s i .msr = true)
    (hg : s.gaps = []) : pollLoop i want n s =
      .ok (decide ((s.can i).inak = want) && decide (0 < n),
        s.takeDraws (if (s.can i).inak = want then min 1 n else n)) := by
  by_cases hm : (s.can i).inak = want
  · cases n with
    | zero => simp [pollLoop]
    | succ n => simp [pollLoop_succ want n ha, afterGap_of_ended s hg, hm]
  · simp [pollLoop_of_ended n ha hg hm, hm]

/-! ## The blocking calls (R217, R218) -/

/-- A mode request, then the polls: the shape of both blocking calls. -/
def requestThenPoll (request : Prog Unit) (i : Inst) (want : Bool) : Prog Bool := do
  request
  let p ← atOnce.params
  atOnce.poll i want p.pollBound

theorem exec_opEnterInitBlocking (i : Inst) (s : State) :
    exec (.opEnterInitBlocking i) s = runFlag (requestThenPoll (enterInitProg atOnce i) i true) s := rfl

theorem exec_opLeaveInitBlocking (i : Inst) (s : State) :
    exec (.opLeaveInitBlocking i) s = runFlag (requestThenPoll (leaveInitProg atOnce i) i false) s := rfl

/-- Once the request is made, the call is the polling. -/
theorem runFlag_requestThenPoll {request : Prog Unit} {s m t : State} {i : Inst} {want b : Bool}
    (hreq : request s = .ok ((), m)) (hpoll : pollLoop i want m.params.pollBound m = .ok (b, t)) :
    runFlag (requestThenPoll request i want) s = .next (t.returning (.flag b)) := by
  refine runFlag_ok ?_
  rw [requestThenPoll, Prog.bind_ok hreq, Prog.bind_ok (atOnce_params_eq m), atOnce_poll, pollInak_eq_pollLoop, hpoll]

/-- A blocking call whose request is made completes; its answer is what the last poll saw. -/
theorem requestThenPoll_completes {request : Prog Unit} {s m : State} {i : Inst} (want : Bool)
    (hreq : request s = .ok ((), m)) (ha : accessible m i .msr = true) :
    ∃ t b, runFlag (requestThenPoll request i want) s = .next t ∧ t.result = .flag b ∧
      (t.can i).mcr.inrq = (m.can i).mcr.inrq ∧ (b = true → (t.can i).inak = want) ∧
      (b = false → 0 < m.params.pollBound → (t.can i).inak ≠ want) ∧
      t.params = m.params ∧ t.filter = m.filter ∧ t.program = m.program := by
  obtain ⟨b, t, ht, hseen, hunseen⟩ := pollLoop_answers want m.params.pollBound ha
  obtain ⟨hinrq, -, hparams, hfilter, hprogram⟩ := pollLoop_frame ht
  refine ⟨t.returning (.flag b), b, runFlag_requestThenPoll hreq ht, rfl, ?_⟩
  simpa using ⟨hinrq, hseen, hunseen, hparams, hfilter, hprogram⟩

/-- A blocking call without agent steps to come: the whole next state. -/
theorem requestThenPoll_quiet {request : Prog Unit} {s m : State} {i : Inst} (want : Bool)
    (hreq : request s = .ok ((), m)) (ha : accessible m i .msr = true) (hg : m.gaps = []) :
    runFlag (requestThenPoll request i want) s = .next
      ((m.takeDraws (if (m.can i).inak = want then min 1 m.params.pollBound else m.params.pollBound)).returning
        (.flag (decide ((m.can i).inak = want) && decide (0 < m.params.pollBound)))) :=
  runFlag_requestThenPoll hreq (pollLoop_quiet want _ ha hg)

/-- The read-modify-write of a request leaves the window open for the polls. -/
theorem accessible_afterRequest {s : State} {i : Inst} (m : Mcr) (h : accessible s i .mcr = true) :
    accessible ((afterGap (s.takeDraws 1)).setCan i { (afterGap (s.takeDraws 1)).can i with mcr := m }) i .msr
      = true := by
  rw [accessible_setCan _ _ _ _ (by rfl), afterGap_accessible, accessible_takeDraws]
  exact h

/-- Settles O19: the request is one read-modify-write of MCR, and the polls keep what it wrote; without agent steps the
first poll decides. -/
theorem blockingModeCallsPollTheMode : Obligations.BlockingModeCallsPollTheMode := by
  intro s i h c n
  have henter := enterInitProg_ok h
  have hleave := leaveInitProg_ok h
  rw [exec_opEnterInitBlocking, exec_opLeaveInitBlocking]
  refine ⟨?_, ?_, fun hg => ?_⟩
  · simpa [Controller.inak] using requestThenPoll_completes (i := i) true henter (accessible_afterRequest _ h)
  · simpa [Controller.inak] using requestThenPoll_completes (i := i) false hleave (accessible_afterRequest _ h)
  · have hm : afterGap (s.takeDraws 1) = s.takeDraws 1 := afterGap_of_ended _ hg
    constructor
    · simpa [hm, Controller.inak] using
        requestThenPoll_quiet (i := i) true henter (accessible_afterRequest _ h) (by simp [hm, hg])
    · simpa [hm, Controller.inak] using
        requestThenPoll_quiet (i := i) false hleave (accessible_afterRequest _ h) (by simp [hm, hg])

/-! ## Init is kept (R209, R217) -/

/-- Instance i is in Init, by request, and its window is open. -/
def heldInInit (i : Inst) (s : State) : Prop :=
  accessible s i .msr = true ∧ (s.can i).mcr.inrq = true ∧ (s.can i).mode = .init

/-- Only `ModeFsm` could leave Init, and it does not while the request stands (R209). -/
theorem heldInInit_agentStep {i : Inst} (a : AgentStep) (s : State) (h : heldInInit i s) :
    heldInInit i (agentStep a s) := by
  obtain ⟨hacc, hinrq, hmode⟩ := h
  refine ⟨by simpa [accessible] using hacc, by simpa using hinrq, ?_⟩
  by_cases ha : a = .modeFsm i
  · have hstay : (s.can i).mode = (s.can i).mcr.requestedMode := by simp [Mcr.requestedMode, hinrq, hmode]
    rw [ha, agentStep_modeFsm_stays hstay, hmode]
  · exact (agentStep_keepsModeAndWf ha s).mode.trans hmode

theorem heldInInit_agentSteps {i : Inst} {s : State} (h : heldInInit i s) (l : List AgentStep) :
    heldInInit i (agentSteps l s) :=
  agentSteps_keeps (heldInInit i) heldInInit_agentStep l s h

/-- A read-modify-write that answers was let through. -/
theorem accessible_of_rmw {s m : State} {i : Inst} {r : Reg} {clr set : Word}
    (h : atOnce.rmw i r clr set s = .ok ((), m)) : accessible s i r = true := by
  obtain ⟨w, s', hread, -⟩ := Prog.bind_cases h
  exact (regRead_cases hread).1

/-- A blocking call that completes had its window open when it began. -/
theorem accessible_of_enterInitBlocking {s t : State} {i : Inst} (h : exec (.opEnterInitBlocking i) s = .next t) :
    accessible s i .mcr = true := by
  obtain ⟨_, _, hcall, -⟩ := finish_next h
  obtain ⟨_, _, hprog, -⟩ := Prog.bind_cases hcall
  obtain ⟨_, _, hreq, -⟩ := Prog.bind_cases hprog
  exact accessible_of_rmw hreq

/-- A successful `enterInitBlocking` leaves the instance in Init with its request standing. -/
theorem heldInInit_of_enterInitBlocking {s t : State} {i : Inst} (h : exec (.opEnterInitBlocking i) s = .next t)
    (hb : t.result = .flag true) : heldInInit i t := by
  have hacc := accessible_of_enterInitBlocking h
  have hacc' := accessible_afterRequest { (s.can i).mcr with inrq := true } hacc
  obtain ⟨b, t', hpoll, hseen, -⟩ := pollLoop_answers true _ hacc'
  obtain ⟨hinrq, hreset, hparams, -, -⟩ := pollLoop_frame hpoll
  rw [exec_opEnterInitBlocking, runFlag_requestThenPoll (enterInitProg_ok hacc) hpoll] at h
  cases h
  cases hb
  refine ⟨?_, ?_, ?_⟩
  · rw [accessible_returning, ← hacc']
    simp only [accessible, hreset, hparams]
  · rw [State.can_returning, hinrq, State.can_setCan_same]
  · simpa [Controller.inak] using hseen rfl

/-- Settles O20: Init by request is an invariant of the agents' steps, and a successful call ends in it. -/
theorem enterInitSuccessIsStable : Obligations.EnterInitSuccessIsStable := by
  intro s t i h hb l
  obtain ⟨hacc, -, hmode⟩ := heldInInit_agentSteps (heldInInit_of_enterInitBlocking h hb) l
  refine ⟨hmode, ?_⟩
  rw [exec_opIsInit_ok hacc, Controller.inak, hmode]
  rfl

/-! ## Reset (R210, R500) -/

@[simp] theorem clearReset_program (s : State) (i : Inst) : (clearReset i s).program = s.program := by
  unfold clearReset
  split <;> simp

@[simp] theorem clearReset_call (s : State) (i : Inst) : (clearReset i s).call = s.call := by
  unfold clearReset
  split <;> simp

theorem clearReset_filter_of_owner {s : State} {i : Inst} (h : filterOwner s.params = i) :
    (clearReset i s).filter.isAtReset := by
  rw [clearReset, if_pos h]
  exact ⟨rfl, rfl, rfl, rfl, rfl, rfl⟩

theorem clearReset_filter_of_not_owner {s : State} {i : Inst} (h : filterOwner s.params ≠ i) :
    (clearReset i s).filter = s.filter := by
  rw [clearReset, if_neg h]
  simp

theorem Controller.atReset_isAtReset (n : Nat) : (Controller.atReset n).isAtReset :=
  ⟨rfl, rfl, rfl, rfl, rfl, fun x => by cases x <;> exact ⟨rfl, rfl, rfl, rfl, rfl, rfl⟩,
    fun x => by cases x <;> rfl, rfl, rfl, rfl, rfl, rfl⟩

theorem resetAssert_ok {s : State} {i : Inst} (h : hasInst s.params i = true) :
    resetAssert i s = .ok ((), s.setCan i { s.can i with resetAsserted := true }) :=
  if_pos h

theorem resetClear_ok {s : State} {i : Inst} (h : hasInst s.params i = true) :
    resetClear i s = .ok ((), clearReset i s) :=
  if_pos h

/-- `op reset` is the call that asserts the reset, a gap, and the call that clears it (R210). -/
theorem resetProg_ok {s : State} {i : Inst} (h : hasInst s.params i = true) :
    resetProg atOnce i s = .ok ((), clearReset i (afterGap (s.setCan i { s.can i with resetAsserted := true }))) := by
  rw [resetProg, atOnce_assertReset, Prog.bind_ok (resetAssert_ok h), atOnce_gap, Prog.bind_ok (gap_eq _),
    atOnce_clearReset, resetClear_ok (by simpa using h)]

/-- Settles O11: what the clearing call leaves, from a state that agrees with `s` on what neither the asserting call nor
the agent steps of the gap change. -/
theorem resetRestoresPowerUp : Obligations.ResetRestoresPowerUp := by
  intro s i hi asserted cleared
  have hcleared (m : State) (hp : m.params = s.params) (hf : m.filter = s.filter) (hprog : m.program = s.program)
      (hcall : m.call = s.call) : cleared m ((clearReset i m).returning .none) := by
    refine ⟨?_, fun ho => clearReset_filter_of_owner (by rwa [hp]), fun ho => ?_, fun j hj => ?_, ?_, ?_, ?_, ?_, ?_,
      rfl⟩
    · rw [State.can_returning, clearReset_can_same]
      exact Controller.atReset_isAtReset _
    · exact (clearReset_filter_of_not_owner (by rwa [hp])).trans hf
    · rw [State.can_returning, clearReset_can_other m hj]
    all_goals simp [hp, hprog, hcall]
  refine ⟨runUnit_ok (resetAssert_ok hi), ⟨_, runUnit_ok (resetClear_ok hi), hcleared s rfl rfl rfl rfl⟩,
    ⟨_, runUnit_ok (resetProg_ok hi), hcleared (afterGap asserted) ?_ ?_ ?_ ?_⟩⟩
  all_goals simp [asserted]

end Sys2Proof.Machine

/-! PROOFS. Bit timing (41_bit_timing.md): BTR, the segment calculator and the operations on timings. -/

namespace Sys2Proof

/-! ## Timings (R250, R158) -/

theorem Timing.inRange_iff (t : Timing) : t.inRange = true ↔ (1 ≤ t.ts1 ∧ t.ts1 ≤ 16) ∧ (1 ≤ t.ts2 ∧ t.ts2 ≤ 8) ∧
    (1 ≤ t.brp ∧ t.brp ≤ 1024) ∧ (1 ≤ t.sjw ∧ t.sjw ≤ 4) := by
  simp only [Timing.inRange, Bool.and_eq_true, decide_eq_true_eq, and_assoc]
  rfl

/-- A valid timing (R250) with the SJW of R256, whose total divides the quanta count `q`. -/
def Timing.Splits (t : Timing) (q : Nat) : Prop :=
  1 ≤ t.ts1 ∧ t.ts1 ≤ 16 ∧ 1 ≤ t.ts2 ∧ t.ts2 ≤ 8 ∧ 1 ≤ t.brp ∧ t.brp ≤ 1024 ∧ 1 ≤ t.sjw ∧ t.sjw = min t.ts2 4 ∧
    q = (1 + t.ts1 + t.ts2) * t.brp

/-- A number that fits in n bits, placed at bit `lo`. -/
theorem fieldAt_ofNat {n m : Nat} (lo : Nat) (hn : n ≤ 32) (hm : m < 2 ^ n) :
    fieldAt (BitVec.ofNat n m) lo = BitVec.ofNat 32 m <<< lo := by
  rw [fieldAt, BitVec.setWidth_ofNat_of_le_of_lt hn hm]

/-- The BTR bits of a timing in range are its four fields, each one less, in their places (R158). -/
theorem Timing.btrFields_eq {t : Timing} (h : t.inRange = true) : t.btrFields =
    fieldAt (BitVec.ofNat 2 (t.sjw - 1)) 24 ||| fieldAt (BitVec.ofNat 3 (t.ts2 - 1)) 20
      ||| fieldAt (BitVec.ofNat 4 (t.ts1 - 1)) 16 ||| fieldAt (BitVec.ofNat 10 (t.brp - 1)) 0 := by
  obtain ⟨hts1, hts2, hbrp, hsjw⟩ := (Timing.inRange_iff t).1 h
  rw [fieldAt_ofNat 24 (by decide) (by omega), fieldAt_ofNat 20 (by decide) (by omega),
    fieldAt_ofNat 16 (by decide) (by omega), fieldAt_ofNat 0 (by decide) (by omega), BitVec.shiftLeft_zero]
  rfl

end Sys2Proof

namespace Sys2Proof.Machine

/-! ## BTR (R251, R252) -/

/-- What a word written to BTR stores (R252). -/
def Btr.stored (v : BusWord) : Btr where
  brp := v.field 0 10
  ts1 := v.field 16 4
  ts2 := v.field 20 3
  sjw := v.field 24 2
  lbkm := v.bit 30
  silm := v.bit 31

theorem writeRule_btr_ok {s : State} {i : Inst} (a : Access) (v : BusWord) (h : (s.can i).mode = .init) :
    writeRule a s i v .btr = .ok (s.setCan i { s.can i with btr := .stored v }) := by
  simp only [writeRule, writeBtr, if_pos h, Except.map, Btr.stored]

theorem writeRule_btr_stop {s : State} {i : Inst} (a : Access) (v : BusWord) (h : (s.can i).mode ≠ .init) :
    writeRule a s i v .btr = .error (.fault (.btrWriteOutsideInit (.access a))) := by
  simp only [writeRule, writeBtr, if_neg h, Except.map]

/-- Settles O23: the fields of the register's read rule, and the two cases of its write rule. -/
theorem btrReadAndWrite : Obligations.BtrReadAndWrite := by
  intro s i v h
  refine ⟨⟨_, exec_rd_ok (r := .btr) h, ?_⟩, fun hm => ?_, fun hm => ?_⟩
  · simp only [← BusWord.bit_eq_word, ← BusWord.field_eq_word, readRule, readBtr_field_0_10, readBtr_field_16_4,
      readBtr_field_20_3, readBtr_field_24_2, readBtr_bit30, readBtr_bit31, true_and]
    rfl
  · have hw := writeRule_btr_ok (.write i .btr v) (.ofWord v) hm
    simp only [Btr.stored, BusWord.ofWord_field, BusWord.ofWord_bit] at hw
    exact exec_wr_ok (r := .btr) h hw
  · exact exec_wr_fault (r := .btr) h (writeRule_btr_stop _ _ hm)

/-! ## The calculator (R254 to R256, R260) -/

/-- A split whose total divides the quanta count ends the search. -/
theorem convergedTiming_descent {q sp ts1 ts2 : Nat} (h : q % (1 + ts1 + ts2) = 0) :
    Descent q sp ts1 ts2 (convergedTiming q ts1 ts2) := by
  unfold convergedTiming
  simp only [Bool.and_eq_true, decide_eq_true_eq]
  split
  · next hbrp => exact .found ts1 ts2 h hbrp.1 hbrp.2
  · next hbrp => exact .outOfRange ts1 ts2 h ((not_and_or.1 hbrp).imp Nat.lt_of_not_le Nat.lt_of_not_le)

/-- Each pass shortens one segment and none goes below 1, so `ts1 + ts2 - 1` passes are enough (R260). -/
theorem descend_descent (q sp passes : Nat) {ts1 ts2 : Nat} (h1 : 1 ≤ ts1) (h2 : 1 ≤ ts2)
    (hp : ts1 + ts2 ≤ passes + 1) : Descent q sp ts1 ts2 (descend q sp passes ts1 ts2) := by
  induction passes generalizing ts1 ts2 with
  | zero => omega
  | succ passes ih =>
    unfold descend
    split
    · next hq => exact convergedTiming_descent hq
    next hq =>
      split
      · next hlate =>
        split
        · next hstuck => subst hstuck; exact .lateStuck ts2 hq hlate
        · next hmore => exact .lateShrink ts1 ts2 _ hq hlate hmore (ih (by omega) h2 (by omega))
      · next hearly =>
        have hearly := Nat.le_of_not_lt hearly
        split
        · next hstuck => subst hstuck; exact .earlyStuck ts1 hq hearly
        · next hmore => exact .earlyShrink ts1 ts2 _ hq hearly hmore (ih h1 (by omega) (by omega))

theorem computeTiming_zero (sp pclk : Nat) : computeTiming 0 sp pclk = .sentinel := rfl

theorem computeTiming_descent {rate : Nat} (sp pclk : Nat) (h : 0 < rate) :
    Descent (pclk / rate) sp 14 5 (computeTiming rate sp pclk) := by
  rw [computeTiming, if_neg (Nat.ne_of_gt h)]
  exact descend_descent _ _ maxPasses (by decide) (by decide) (by decide)

theorem exec_opComputeTiming (rate sp pclk : Nat) (s : State) :
    exec (.opComputeTiming rate sp pclk) s = .next (s.returning (.timing (computeTiming rate sp pclk))) := rfl

/-- Settles O24: the counted descent is the search of R254, by induction on the passes left. -/
theorem computeTimingFollowsTheDescent : Obligations.ComputeTimingFollowsTheDescent :=
  fun rate sp pclk s => ⟨computeTiming rate sp pclk, exec_opComputeTiming rate sp pclk s,
    fun h => by rw [h]; exact computeTiming_zero sp pclk, computeTiming_descent sp pclk⟩

/-- The search keeps its segments in range, so what it finds is valid. -/
theorem Descent.sentinel_or_splits {q sp ts1 ts2 : Nat} {t : Timing} (h : Descent q sp ts1 ts2 t)
    (h1 : 1 ≤ ts1 ∧ ts1 ≤ 16) (h2 : 1 ≤ ts2 ∧ ts2 ≤ 8) : t = .sentinel ∨ t.Splits q := by
  induction h with
  | found ts1 ts2 hq hlow hhigh =>
    exact .inr ⟨h1.1, h1.2, h2.1, h2.2, hlow, hhigh, le_min h2.1 (by decide), rfl,
      (Nat.mul_div_cancel' (Nat.dvd_of_mod_eq_zero hq)).symm⟩
  | outOfRange | lateStuck | earlyStuck => exact .inl rfl
  | lateShrink ts1 ts2 t _ _ _ _ ih => exact ih (by omega) h2
  | earlyShrink ts1 ts2 t _ _ _ _ ih => exact ih h1 (by omega)

theorem computeTiming_sentinel_or_splits (rate sp pclk : Nat) : computeTiming rate sp pclk = .sentinel ∨
    (0 < rate ∧ (computeTiming rate sp pclk).Splits (pclk / rate)) := by
  rcases Nat.eq_zero_or_pos rate with rfl | h
  · exact .inl (computeTiming_zero sp pclk)
  · exact ((computeTiming_descent sp pclk h).sentinel_or_splits (by decide) (by decide)).imp_right (.intro h)

/-- Settles O25: every way through the search keeps both segments in range. -/
theorem computedTimingsAreValid : Obligations.ComputedTimingsAreValid := computeTiming_sentinel_or_splits

/-! ## The effective bit rate (R258, R259) -/

theorem exec_opGetEffectiveBitrate (t : Timing) (pclk : Nat) (s : State) :
    exec (.opGetEffectiveBitrate t pclk) s = .next (s.returning (.rate (effectiveBitrate t pclk))) := rfl

/-- A timing whose quanta count is that of an exact rate gives the rate back. -/
theorem effectiveBitrate_of_splits {rate pclk : Nat} {t : Timing} (hd : rate ∣ pclk)
    (h : t.Splits (pclk / rate)) : effectiveBitrate t pclk = rate := by
  obtain ⟨-, -, -, -, hbrp, -, -, -, hq⟩ := h
  have hpos : 0 < pclk / rate := hq ▸ Nat.mul_pos (by omega) hbrp
  have hpclk : pclk ≠ 0 := fun h0 => by simp [h0] at hpos
  rw [effectiveBitrate, ← hq, if_neg hpos.ne', Nat.div_div_self hd hpclk]

/-- Settles O26: for an exact rate the divisor is the quanta count, and the clock divided by it is the rate. -/
theorem effectiveBitrateInvertsTheCalculator : Obligations.EffectiveBitrateInvertsTheCalculator := by
  refine ⟨exec_opGetEffectiveBitrate, fun rate sp pclk s hd hne => ?_⟩
  obtain ⟨-, hsplits⟩ := (computeTiming_sentinel_or_splits rate sp pclk).resolve_left hne
  rw [exec_opGetEffectiveBitrate, effectiveBitrate_of_splits hd hsplits]

/-! ## Applying a timing (R257, R158) -/

/-- The fields of a timing's BTR bits, none of them LBKM or SILM (R158, R257). -/
theorem btrFields_fields {t : Timing} (h : t.inRange = true) :
    t.btrFields.extractLsb' 0 10 = BitVec.ofNat 10 (t.brp - 1) ∧
      t.btrFields.extractLsb' 16 4 = BitVec.ofNat 4 (t.ts1 - 1) ∧
      t.btrFields.extractLsb' 20 3 = BitVec.ofNat 3 (t.ts2 - 1) ∧
      t.btrFields.extractLsb' 24 2 = BitVec.ofNat 2 (t.sjw - 1) ∧
      t.btrFields.getLsbD 30 = false ∧ t.btrFields.getLsbD 31 = false := by
  rw [Timing.btrFields_eq h]
  simp [BitVec.extractLsb'_or, extractLsb'_fieldAt_same, extractLsb'_fieldAt_other, -BitVec.getLsbD_eq_getElem]

/-- What `applyTiming` writes over the BTR word it read (R257). -/
def applied (t : Timing) (w : BusWord) : BusWord := w.update btrFieldMask t.btrFields

/-- The timing reads back. -/
theorem stored_applied_timing {t : Timing} (w : BusWord) (h : t.inRange = true) :
    (Btr.stored (applied t w)).timing = t := by
  obtain ⟨hts1, hts2, hbrp, hsjw⟩ := t.inRange_iff.1 h
  obtain ⟨fbrp, fts1, fts2, fsjw, -, -⟩ := btrFields_fields h
  simp only [Btr.timing, Btr.stored, applied]
  rw [BusWord.update_field_set _ _ _ 0 10 (by decide) (by decide), fbrp,
    BusWord.update_field_set _ _ _ 16 4 (by decide) (by decide), fts1,
    BusWord.update_field_set _ _ _ 20 3 (by decide) (by decide), fts2,
    BusWord.update_field_set _ _ _ 24 2 (by decide) (by decide), fsjw]
  simp (disch := omega) only [BitVec.toNat_ofNat, Nat.mod_eq_of_lt, Nat.sub_add_cancel]

/-- LBKM and SILM are written back as read. -/
theorem stored_applied_modes {t : Timing} (c : Controller) (d : Word) (h : t.inRange = true) :
    (Btr.stored (applied t (readBtr c d))).lbkm = c.btr.lbkm ∧
      (Btr.stored (applied t (readBtr c d))).silm = c.btr.silm := by
  obtain ⟨-, -, -, -, h30, h31⟩ := btrFields_fields h
  have hmask : btrFieldMask.getLsbD 30 = false ∧ btrFieldMask.getLsbD 31 = false := by decide
  simp only [Btr.stored, applied, BusWord.update_bit _ _ _ _ (show 30 < 32 by decide),
    BusWord.update_bit _ _ _ _ (show 31 < 32 by decide), readBtr_bit30, readBtr_bit31, h30, h31, hmask, Bool.not_false,
    Bool.and_true, Bool.or_false, and_self]

/-- A read-modify-write whose write its register's rule stops. -/
theorem rmw_stop {s : State} {i : Inst} {r : Reg} {clr set : Word} {e : Stop} (h : accessible s i r = true)
    (hw : writeRule (.write i r ((readRule s i (Config.draw s.draws) r).update clr set).whole)
      (afterGap (s.takeDraws 1)) i ((readRule s i (Config.draw s.draws) r).update clr set) r = .error e) :
    atOnce.rmw i r clr set s = .error e := by
  unfold Driver.rmw
  rw [atOnce_read, Prog.bind_ok (regRead_ok h), thenWrite_eq]
  exact regWrite_stop (by simpa using h) hw

theorem applyTimingProg_inRange {i : Inst} {t : Timing} (h : t.inRange = true) :
    applyTimingProg atOnce i t = atOnce.rmw i .btr btrFieldMask t.btrFields := if_pos h

theorem applyTimingProg_outOfRange {i : Inst} {t : Timing} (h : ¬t.inRange = true) :
    applyTimingProg atOnce i t = Prog.fault (.invalidTiming (.operation (.opApplyTiming i t))) := if_neg h

theorem exec_opApplyTiming (i : Inst) (t : Timing) (s : State) :
    exec (.opApplyTiming i t) s = runUnit (applyTimingProg atOnce i t) s := rfl

/-- Settles O27: the operation checks its timing, then is one read-modify-write of BTR, whose write rule asks for Init;
what it stores is the timing next to the modes it read. -/
theorem applyTimingReplacesTheFourFields : Obligations.ApplyTimingReplacesTheFourFields := by
  intro s i t valid m
  rw [exec_opApplyTiming]
  refine ⟨fun hv => ?_, fun hv hacc => ?_⟩
  · rw [applyTimingProg_outOfRange (mt t.inRange_iff.1 hv)]
    exact runUnit_fault rfl
  · have hin := t.inRange_iff.2 hv
    rw [applyTimingProg_inRange hin]
    refine ⟨fun hm => ⟨_, runUnit_ok (rmw_ok hacc (by simpa using hacc) (writeRule_btr_ok _ _ hm)),
      stored_applied_timing _ hin, ?_⟩, fun hm => ⟨_, runUnit_fault (rmw_stop hacc (writeRule_btr_stop _ _ hm))⟩⟩
    exact stored_applied_modes (s.can i) _ hin

end Sys2Proof.Machine

/-! PROOFS. The filter bank (42_filter_bank.md): the filter registers, `configureFilter` and its helpers, and the
acceptance of a frame. -/

namespace Sys2Proof.Machine

/-! ## What the filter registers read (R300 to R304) -/

theorem accessible_fr_of_fmr {s : State} {i : Inst} {b : Fin 28} (k : WordIx) (h : accessible s i .fmr = true)
    (hb : b.val < s.params.nbanks.toNat) : accessible s i (.fr b k) = true := by
  simpa [accessible, decodedIn, hb] using h

theorem readBankVector_word (p : Params) (r : BitVec 28) (d : Word) {b : Nat} (hb : b < p.nbanks.toNat) :
    (readBankVector p r d).word.getLsbD b = r.getLsbD b := by
  rw [← BusWord.bit_eq_word, readBankVector_bit p r d b hb]

theorem readBankVector_free (p : Params) (r : BitVec 28) (d : Word) {b : Nat} (hb : b < 32) :
    (readBankVector p r d).free.getLsbD b = decide (p.nbanks.toNat ≤ b) := by
  rw [readBankVector, BitVec.getLsbD_not, getLsbD_bankMask, decide_eq_true hb, Bool.true_and, ← decide_not]
  simp only [Nat.not_lt]

/-- Settles O28: each word read is the register's read rule. -/
theorem filterRegistersReadTheirBanks : Obligations.FilterRegistersReadTheirBanks := by
  intro s i h fl reads vector
  have hreads {P : BusWord → Prop} (r : Reg) (hr : accessible s i r = true)
      (hP : P (readRule s i (Config.draw s.draws) r)) : reads (Instr.rd r i) P := ⟨_, exec_rd_ok hr, hP⟩
  have hvector (v : BitVec 28) : vector v (readBankVector s.params v (Config.draw s.draws)) :=
    fun b hb => ⟨readBankVector_word _ _ _, readBankVector_free _ _ _ hb⟩
  refine ⟨hreads .fmr h ⟨?_, fun hn => ⟨?_, ?_⟩, fun hn => ?_⟩, hreads .fm1r h (hvector _),
    hreads .fs1r h (hvector _), hreads .ffa1r h (hvector _), hreads .fa1r h (hvector _), fun b hb =>
      ⟨hreads (.fr b .r1) (accessible_fr_of_fmr _ h hb) ⟨BusWord.ofWord_word _, rfl⟩,
        hreads (.fr b .r2) (accessible_fr_of_fmr _ h hb) ⟨BusWord.ofWord_word _, rfl⟩⟩⟩
  · rw [← BusWord.bit_eq_word]
    exact readFmr_bit0 ..
  · rw [← BusWord.field_eq_word]
    exact readFmr_field_8_6 _ _ _ hn
  · simp only [readRule, readFmr, hn]
  · simp only [readRule, readFmr, hn]

/-! ## What their writes store (R300 to R304) -/

theorem writeFmr_latch_only {a : Access} {p : Params} {fl : FilterBlock} {v : BusWord}
    (h : p.nbanks = .banks14 ∨ v.field 8 6 = fl.can2sb) : writeFmr a p fl v = .ok { fl with finit := v.bit 0 } := by
  unfold writeFmr
  split
  · rfl
  · next hn => exact if_pos (h.resolve_left (by simp [hn]))

/-- A write that changes CAN2SB: its two checks, in their order. -/
theorem writeFmr_split {a : Access} {p : Params} {fl : FilterBlock} {v : BusWord} (hn : p.nbanks = .banks28)
    (hv : v.field 8 6 ≠ fl.can2sb) : writeFmr a p fl v =
      if !fl.finit then .error (.fault (.filterWriteOutsideInit (.access a)))
      else if 28 < (v.field 8 6).toNat then .error (.fault (.can2sbRange (.access a)))
      else .ok { fl with can2sb := v.field 8 6, finit := v.bit 0 } := by
  simp only [writeFmr, hn]
  exact if_neg hv

/-- Settles O29: the cases of the write rule of FMR. -/
theorem fmrWriteHoldsOrReleasesTheLatch : Obligations.FmrWriteHoldsOrReleasesTheLatch := by
  intro s i v h fl split
  have hsplit : (BusWord.ofWord v).field 8 6 = split := BusWord.ofWord_field v 8 6
  refine ⟨fun hkeep => exec_wr_ok (r := .fmr) h ?_, fun hn hne => ?_⟩
  · rw [writeRule, writeFmr_latch_only (hsplit ▸ hkeep), BusWord.ofWord_bit]
    rfl
  · have hw := writeFmr_split (a := .write i .fmr v) hn (hsplit ▸ hne)
    rw [hsplit, BusWord.ofWord_bit] at hw
    refine ⟨fun hf => exec_wr_fault (r := .fmr) h ?_, fun hf hmax => exec_wr_fault (r := .fmr) h ?_,
      fun hf hmax => exec_wr_ok (r := .fmr) h ?_⟩
    · rw [writeRule, hw, hf]
      rfl
    · rw [writeRule, hw, hf, if_neg (by decide), if_pos hmax]
      rfl
    · rw [writeRule, hw, hf, if_neg (by decide), if_neg (Nat.not_lt.2 hmax)]
      rfl

/-- The write instruction of a register whose rule asks for the latch only. -/
theorem exec_wr_latched {s : State} {i : Inst} {r : Reg} {v : Word} {fl : FilterBlock} (h : accessible s i r = true)
    (hrule : writeRule (.write i r v) s i (.ofWord v) r = (s.filter.ifLatched (.write i r v) fl).map s.setFilter) :
    (s.filter.finit = true → exec (Instr.wr r i v) s = .next ((s.setFilter fl).returning .none)) ∧
      (s.filter.finit = false →
        exec (Instr.wr r i v) s = .fault (.filterWriteOutsideInit (.access (.write i r v)))) := by
  refine ⟨fun hf => exec_wr_ok h ?_, fun hf => exec_wr_fault h ?_⟩ <;> rw [hrule, FilterBlock.ifLatched, hf] <;> rfl

/-- Settles O30: each vector's rule stores the bits of existing banks, with the latch held. -/
theorem bankVectorWritesNeedTheLatch : Obligations.BankVectorWritesNeedTheLatch := by
  intro s i v h fl
  have hfm := exec_wr_latched (r := .fm1r) (v := v) h rfl
  have hfs := exec_wr_latched (r := .fs1r) (v := v) h rfl
  have hffa := exec_wr_latched (r := .ffa1r) (v := v) h rfl
  have hfa := exec_wr_latched (r := .fa1r) (v := v) h rfl
  refine ⟨fun hf => ⟨bankBits s.params (.ofWord v), fun b => ?_, hfm.1 hf, hfs.1 hf, hffa.1 hf, hfa.1 hf⟩,
    fun hf => ⟨hfm.2 hf, hfs.2 hf, hffa.2 hf, hfa.2 hf⟩⟩
  rw [getLsbD_bankBits, BusWord.ofWord_bit]

/-- The bank words with word k of bank b replaced. -/
def setWord (fr : Vector BankWords 28) (b : Fin 28) (k : WordIx) (v : Word) : Vector BankWords 28 :=
  fr.set b (fr[b].set k v)

theorem get_setWord_same (fr : Vector BankWords 28) (b : Fin 28) (k : WordIx) (v : Word) :
    (setWord fr b k v)[b].get k = v := by
  simp [setWord]

theorem get_setWord_other (fr : Vector BankWords 28) {b b' : Fin 28} {k k' : WordIx} (v : Word)
    (h : (b', k') ≠ (b, k)) : (setWord fr b k v)[b'].get k' = fr[b'].get k' := by
  by_cases hb : b' = b
  · subst hb
    have hk : k' ≠ k := fun hk => h (congrArg _ hk)
    simp [setWord, BankWords.get_set_other _ _ _ _ hk]
  · have hne : b.val ≠ b'.val := fun he => hb (Fin.ext he.symm)
    simp [setWord, Vector.getElem_set_ne, hne]

/-- Settles O31: the word's rule replaces that word, with the latch held. -/
theorem bankWordWritesStoreOneWord : Obligations.BankWordWritesStoreOneWord := by
  intro s i b k v h
  have hw := exec_wr_latched (r := .fr b k) (v := v) (fl := { s.filter with fr := setWord s.filter.fr b k v }) h rfl
  exact ⟨fun hf => ⟨_, hw.1 hf, get_setWord_same .., fun b' k' => get_setWord_other _ v⟩, hw.2⟩

/-! ## Which frames a filter matches (R307 to R310) -/

/-- Two words are equal under a mask exactly when they agree where it has a 1. -/
theorem and_eq_and_iff {w : Nat} (x y m : BitVec w) :
    x &&& m = y &&& m ↔ ∀ j, m.getLsbD j = true → x.getLsbD j = y.getLsbD j := by
  refine ⟨fun h j hm => ?_, fun h => BitVec.eq_of_getLsbD_eq fun j _ => ?_⟩
  · have hj := congrArg (·.getLsbD j) h
    simpa only [BitVec.getLsbD_and, hm, Bool.and_true] using hj
  · rw [BitVec.getLsbD_and, BitVec.getLsbD_and]
    cases hm : m.getLsbD j
    · simp only [Bool.and_false]
    · rw [h j hm]

/-- The difference of two words is 0 under a mask exactly when they agree where it has a 1. -/
theorem xor_and_eq_zero_iff {w : Nat} (x y m : BitVec w) :
    (x ^^^ y) &&& m = 0 ↔ ∀ j, m.getLsbD j = true → x.getLsbD j = y.getLsbD j := by
  have hd : (x ^^^ y) &&& m = (x &&& m) ^^^ (y &&& m) := BitVec.eq_of_getLsbD_eq fun j _ => by
    simp only [BitVec.getLsbD_and, BitVec.getLsbD_xor, Bool.and_xor_distrib_right]
  rw [← and_eq_and_iff, hd]
  exact BitVec.xor_eq_zero_iff

/-- The bits a 32-bit filter compares (R307). -/
theorem getLsbD_compareMask (p : Params) (j : Nat) :
    (compareMask p).getLsbD j = true ↔ j < 32 ∧ (j = 0 → p.bit0Compared = true) := by
  by_cases hj : j < 32
  · cases h : p.bit0Compared <;> simp only [compareMask, h] <;> interval_cases j <;> decide
  · simp [BitVec.getLsbD_of_ge _ j (Nat.le_of_not_lt hj), hj]

theorem match32Mask_iff (p : Params) (w : BankWords) (f : Frame) : match32Mask p w f = true ↔
    ∀ j, (compareMask p).getLsbD j = true → w.r2.getLsbD j = true → f.w32.getLsbD j = w.r1.getLsbD j := by
  rw [match32Mask, beq_iff_eq, BitVec.and_assoc]
  refine (xor_and_eq_zero_iff ..).trans (forall_congr' fun j => ?_)
  rw [BitVec.getLsbD_and, Bool.and_eq_true, and_comm, and_imp]

theorem match32List_iff (p : Params) (word : Word) (f : Frame) : match32List p word f = true ↔
    ∀ j, (compareMask p).getLsbD j = true → f.w32.getLsbD j = word.getLsbD j := by
  rw [match32List, beq_iff_eq, and_eq_and_iff]

theorem match16Mask_iff (word : Word) (f : Frame) : match16Mask word f = true ↔
    ∀ j, j < 16 → word.getLsbD (16 + j) = true → f.w16.getLsbD j = word.getLsbD j := by
  rw [match16Mask, beq_iff_eq]
  refine (xor_and_eq_zero_iff ..).trans (forall_congr' fun j => ?_)
  by_cases hj : j < 16 <;> simp [BitVec.getLsbD_extractLsb', hj, -BitVec.getLsbD_eq_getElem]

theorem match16List_iff (half : Half) (f : Frame) : match16List half f = true ↔ f.w16 = half := beq_iff_eq

/-- A filter the bank does not hold matches nothing (R306). -/
theorem filterMatches_beyond (p : Params) (w : BankWords) (f : Frame) (k : Nat) :
    (1 ≤ k → filterMatches p true false w k f = false) ∧ (2 ≤ k → filterMatches p true true w k f = false) ∧
      (2 ≤ k → filterMatches p false false w k f = false) ∧ (4 ≤ k → filterMatches p false true w k f = false) := by
  match k with
  | 0 | 1 | 2 | 3 | _ + 4 => simp [filterMatches]

/-- Settles O35: the filter of each scale, mode and number, by the bits its comparison looks at. -/
theorem filtersCompareTheirBits : Obligations.FiltersCompareTheirBits := by
  intro p w f compared half
  have hcompared (j : Nat) : (compareMask p).getLsbD j = true ↔ compared j := getLsbD_compareMask p j
  refine ⟨?_, fun k hk => ?_, fun k hk => ?_, fun k hk => ?_, filterMatches_beyond p w f⟩
  · simp only [← hcompared]
    exact match32Mask_iff p w f
  · simp only [← hcompared]
    match k with
    | 0 => exact match32List_iff p w.r1 f
    | 1 => exact match32List_iff p w.r2 f
  · match k with
    | 0 => exact match16Mask_iff w.r1 f
    | 1 => exact match16Mask_iff w.r2 f
  · match k with
    | 0 | 1 | 2 | 3 => exact match16List_iff _ f

/-! ## Filter numbers (R306) -/

theorem FilterBlock.count_eq (fl : FilterBlock) (b : Nat) : fl.count b =
    if fl.fsc.getLsbD b then (if fl.fbm.getLsbD b then 2 else 1) else (if fl.fbm.getLsbD b then 4 else 2) := by
  unfold FilterBlock.count FilterBlock.scale32 FilterBlock.listMode
  cases fl.fsc.getLsbD b <;> cases fl.fbm.getLsbD b <;> rfl

theorem FilterBlock.fifoOf_eq_iff (fl : FilterBlock) (b b' : Nat) :
    fl.fifoOf b' = fl.fifoOf b ↔ fl.ffa.getLsbD b' = fl.ffa.getLsbD b := by
  unfold FilterBlock.fifoOf
  cases fl.ffa.getLsbD b' <;> cases fl.ffa.getLsbD b <;> decide

theorem numberingStart_eq (p : Params) (fl : FilterBlock) (b : Nat) : numberingStart p fl b =
    if p.ninst = .two ∧ p.nbanks = .banks28 ∧ fl.can2sb.toNat ≤ b ∧ p.fmiRestart = true then fl.can2sb.toNat
    else 0 := by
  unfold numberingStart
  split <;> simp [*]

/-- The sum over a filtered initial segment of the numbers, as a list and as a finite set. -/
theorem sum_filter_range (n : Nat) (q : Nat → Bool) (c : Nat → Nat) :
    (((List.range n).filter q).map c).sum = ∑ j ∈ (Finset.range n).filter (q · = true), c j := by
  rw [← List.sum_toFinset _ (List.nodup_range.filter q)]
  congr 1
  ext j
  simp

/-- Settles O36: the model's number, its bank counts and its numbering's start in the words of R306. -/
theorem filterNumbersCountTheFifosFilters : Obligations.FilterNumbersCountTheFifosFilters := by
  intro p fl b k count lo
  have hcount : fl.count = count := funext fl.count_eq
  rw [fmi, sum_filter_range, hcount, numberingStart_eq]
  simp only [Bool.and_eq_true, decide_eq_true_eq, fl.fifoOf_eq_iff]
  rfl

/-! ## Acceptance (R311, R313) -/

theorem FilterBlock.rank_eq (fl : FilterBlock) (b : Nat) :
    fl.rank b = (if fl.fsc.getLsbD b then 0 else 2) + (if fl.fbm.getLsbD b then 0 else 1) := by
  unfold FilterBlock.rank FilterBlock.scale32 FilterBlock.listMode
  cases fl.fsc.getLsbD b <;> cases fl.fbm.getLsbD b <;> rfl

theorem serves_iff (p : Params) (fl : FilterBlock) (b : Nat) (i : Inst) : serves p fl b i = true ↔
    i = if p.ninst = .two ∧ p.nbanks = .banks28 ∧ fl.can2sb.toNat ≤ b then .can2 else .can1 := by
  unfold serves
  split
  · next hi hn =>
    by_cases hb : b < fl.can2sb.toNat
    · simp [hi, hn, hb, Nat.not_le.2 hb]
    · simp [hi, hn, hb, Nat.le_of_not_lt hb]
  all_goals simp [*]

/-- The key of filter k of bank b and the FIFO it routes to (R311). -/
def FilterBlock.candidate (p : Params) (fl : FilterBlock) (b : Fin 28) (k : Nat) : Candidate :=
  { rank := fl.rank b.val, number := fmi p fl b.val k, fifo := fl.fifoOf b.val }

theorem mem_bankCandidates {p : Params} {fl : FilterBlock} {i : Inst} {f : Frame} {b : Fin 28} {c : Candidate} :
    c ∈ bankCandidates p fl i f b ↔ ∃ k, isCandidate p fl i f b k ∧ fl.candidate p b k = c := by
  unfold bankCandidates isCandidate FilterBlock.candidate
  split
  · next h =>
    simp only [bankTakesPart, Bool.and_eq_true, decide_eq_true_eq] at h
    simp [h]
  · next h =>
    simp only [bankTakesPart, Bool.and_eq_true, decide_eq_true_eq] at h
    simp only [List.not_mem_nil, false_iff]
    rintro ⟨k, ⟨hb, hact, hs, -⟩, -⟩
    exact h ⟨⟨hb, hact⟩, hs⟩

theorem mem_candidates {p : Params} {fl : FilterBlock} {i : Inst} {f : Frame} {c : Candidate} :
    c ∈ candidates p fl i f ↔ ∃ b k, isCandidate p fl i f b k ∧ fl.candidate p b k = c := by
  simp only [candidates, List.mem_flatMap, List.mem_finRange, true_and, mem_bankCandidates]

theorem Candidate.keyLe_iff (c d : Candidate) :
    c.keyLe d = true ↔ c.rank < d.rank ∨ (c.rank = d.rank ∧ c.number ≤ d.number) := by
  simp only [Candidate.keyLe, Bool.or_eq_true, Bool.and_eq_true, decide_eq_true_eq]

theorem mem_accept {p : Params} {fl : FilterBlock} {i : Inst} {f : Frame} {x : FifoIx} {n : Nat} :
    (x, n) ∈ accept p fl i f ↔ ∃ c ∈ candidates p fl i f,
      c.fifo = x ∧ c.number = n ∧ ∀ d ∈ candidates p fl i f, c.keyLe d = true := by
  simp only [accept, List.mem_map, List.mem_filter, List.all_eq_true, Prod.mk.injEq]
  constructor
  · rintro ⟨c, ⟨hc, hmin⟩, hx, hn⟩
    exact ⟨c, hc, hx, hn, hmin⟩
  · rintro ⟨c, hc, hx, hn, hmin⟩
    exact ⟨c, ⟨hc, hmin⟩, hx, hn⟩

/-- Settles O37: `accept` keeps the candidates that no candidate undercuts, and each is a filter that takes part. -/
theorem acceptanceTakesTheLeastKey : Obligations.AcceptanceTakesTheLeastKey := by
  refine ⟨fun p fl i f x n => ?_, serves_iff, FilterBlock.rank_eq⟩
  rw [mem_accept]
  constructor
  · rintro ⟨c, hc, rfl, rfl, hmin⟩
    obtain ⟨b, k, hcand, rfl⟩ := mem_candidates.1 hc
    exact ⟨b, k, hcand, rfl, rfl, fun b' k' h' =>
      (Candidate.keyLe_iff ..).1 (hmin _ (mem_candidates.2 ⟨b', k', h', rfl⟩))⟩
  · rintro ⟨b, k, hcand, rfl, rfl, hmin⟩
    refine ⟨_, mem_candidates.2 ⟨b, k, hcand, rfl⟩, rfl, rfl, fun d hd => ?_⟩
    obtain ⟨b', k', h', rfl⟩ := mem_candidates.1 hd
    exact (Candidate.keyLe_iff ..).2 (hmin b' k' h')

/-! ## Host steps of `configureFilter` (R314) -/

/-- What a piece of `configureFilter` leaves besides the filter block: n draws are taken, and agents may have
stepped. -/
structure Advanced (n : Nat) (s t : State) : Prop where
  params : t.params = s.params
  program : t.program = s.program
  draws : t.draws = s.draws + n
  resetAsserted : ∀ i, (t.can i).resetAsserted = (s.can i).resetAsserted
  quiet : s.gaps = [] → t.can1 = s.can1 ∧ t.can2 = s.can2 ∧ t.busOut = s.busOut ∧ t.gaps = []

theorem Advanced.trans {n m : Nat} {s t u : State} (h : Advanced n s t) (h' : Advanced m t u) :
    Advanced (n + m) s u where
  params := h'.params.trans h.params
  program := h'.program.trans h.program
  draws := by rw [h'.draws, h.draws, Nat.add_assoc]
  resetAsserted i := (h'.resetAsserted i).trans (h.resetAsserted i)
  quiet hg := by
    obtain ⟨h1, h2, hb, hg'⟩ := h.quiet hg
    obtain ⟨h1', h2', hb', hg''⟩ := h'.quiet hg'
    exact ⟨h1'.trans h1, h2'.trans h2, hb'.trans hb, hg''⟩

theorem Advanced.accessible {n : Nat} {s t : State} (h : Advanced n s t) (i : Inst) (r : Reg) :
    accessible t i r = accessible s i r := by
  simp only [Machine.accessible, h.params, h.resetAsserted]

theorem advanced_takeDraws (s : State) (n : Nat) : Advanced n s (s.takeDraws n) :=
  ⟨rfl, rfl, rfl, fun i => by rw [State.can_takeDraws], fun hg => ⟨rfl, rfl, rfl, hg⟩⟩

theorem advanced_afterGap (s : State) : Advanced 0 s (afterGap s) :=
  ⟨afterGap_params s, afterGap_program s, afterGap_draws s, afterGap_resetAsserted s,
    fun hg => by rw [afterGap_of_ended s hg]; exact ⟨rfl, rfl, rfl, hg⟩⟩

theorem advanced_setFilter (s : State) (fl : FilterBlock) : Advanced 0 s (s.setFilter fl) :=
  ⟨rfl, rfl, rfl, fun i => by rw [State.can_setFilter], fun hg => ⟨rfl, rfl, rfl, hg⟩⟩

/-- Through the owner's window in a part with the parameters u, a piece that finds the filter block fl completes with n
draws and leaves fl'. -/
def Prog.Rewrites (p : Prog Unit) (i : Inst) (u : Params) (n : Nat) (fl fl' : FilterBlock) : Prop :=
  ∀ s, s.params = u → accessible s i .fmr = true → s.filter = fl →
    ∃ t, p s = .ok ((), t) ∧ t.filter = fl' ∧ Advanced n s t

section
variable {i : Inst} {u : Params} {fl : FilterBlock}

theorem Prog.Rewrites.bind {p q : Prog Unit} {n m : Nat} {fl' fl'' : FilterBlock} (hp : p.Rewrites i u n fl fl')
    (hq : q.Rewrites i u m fl' fl'') : (do p; q : Prog Unit).Rewrites i u (n + m) fl fl'' := by
  intro s hu ha hf
  obtain ⟨t, ht, hf', hadv⟩ := hp s hu ha hf
  obtain ⟨t', ht', hf'', hadv'⟩ := hq t (hadv.params.trans hu) (by rwa [hadv.accessible]) hf'
  exact ⟨t', by rw [Prog.bind_ok ht, ht'], hf'', hadv.trans hadv'⟩

theorem gap_rewrites : gap.Rewrites i u 0 fl fl :=
  fun s _ _ hf => ⟨_, gap_eq s, by rw [afterGap_filter, hf], advanced_afterGap s⟩

theorem regWrite_rewrites {r : Reg} {v : BusWord} {fl' : FilterBlock}
    (h : ∀ s, s.params = u → accessible s i .fmr = true → s.filter = fl →
      regWrite i r v s = .ok ((), s.setFilter fl')) : (regWrite i r v).Rewrites i u 0 fl fl' :=
  fun s hu ha hf => ⟨_, h s hu ha hf, rfl, advanced_setFilter s fl'⟩

theorem rmw_rewrites {r : Reg} {clr set : Word} {fl' : FilterBlock}
    (h : ∀ s, s.params = u → accessible s i .fmr = true → s.filter = fl →
      atOnce.rmw i r clr set s = .ok ((), (afterGap (s.takeDraws 1)).setFilter fl')) :
    (atOnce.rmw i r clr set).Rewrites i u 1 fl fl' :=
  fun s hu ha hf => ⟨_, h s hu ha hf, rfl,
    ((advanced_takeDraws s 1).trans (advanced_afterGap _)).trans (advanced_setFilter _ fl')⟩

theorem thenRmw_rewrites {r : Reg} {clr set : Word} {n : Nat} {fl' : FilterBlock}
    (h : (atOnce.rmw i r clr set).Rewrites i u n fl fl') : (atOnce.thenRmw i r clr set).Rewrites i u n fl fl' := by
  have h' := gap_rewrites.bind h
  rwa [Nat.zero_add] at h'

theorem hold_rewrites : (atOnce.rmw i .fmr 0 1).Rewrites i u 1 fl { fl with finit := true } :=
  rmw_rewrites fun s _ ha hf => by rw [rmw_fmr_hold ha, hf]

theorem release_rewrites : (atOnce.thenRmw i .fmr 1 0).Rewrites i u 1 fl { fl with finit := false } :=
  thenRmw_rewrites (rmw_rewrites fun s _ ha hf => by rw [rmw_fmr_release ha, hf])

/-! ### One bank's bit of a vector -/

/-- A bank vector with bank b's bit set or cleared, the bits of banks that do not exist being 0 (R304). -/
def setBank (u : Params) (v : BitVec 28) (b : Nat) (on : Bool) : BitVec 28 :=
  bankBits u (.ofWord (if on then fieldAt v 0 ||| bitWord b else fieldAt v 0 &&& ~~~bitWord b))

theorem lt_32_of_bank {u : Params} {k : Nat} (h : k < u.nbanks.toNat) : k < 32 := by
  cases hb : u.nbanks <;> simp only [hb, BankCount.toNat] at h <;> omega

theorem getLsbD_bitWord (b k : Nat) : (bitWord b).getLsbD k = (decide (k < 32) && decide (k = b)) := by
  rw [bitWord, BitVec.getLsbD_ofNat, Nat.testBit_two_pow]
  simp only [eq_comm]

theorem getLsbD_setBank (u : Params) (v : BitVec 28) (b k : Nat) (on : Bool) :
    (setBank u v b on).getLsbD k = (decide (k < u.nbanks.toNat) && if k = b then on else v.getLsbD k) := by
  rw [setBank, getLsbD_bankBits, BusWord.ofWord_bit]
  by_cases hk : k < u.nbanks.toNat
  · have h32 : k < 32 := lt_32_of_bank hk
    rcases eq_or_ne k b with rfl | hb
    · cases on <;> simp [getLsbD_bitWord, hk, h32, -BitVec.getLsbD_eq_getElem]
    · cases on <;> simp [getLsbD_bitWord, hk, h32, hb, -BitVec.getLsbD_eq_getElem]
  · simp [hk]

theorem setBank_setBank (u : Params) (v : BitVec 28) (b : Nat) (on on' : Bool) :
    setBank u (setBank u v b on) b on' = setBank u v b on' := by
  apply BitVec.eq_of_getLsbD_eq
  intro k _
  simp only [getLsbD_setBank]
  by_cases hk : k < u.nbanks.toNat <;> by_cases hb : k = b <;> simp [hk, hb]

/-- Whatever the read draws, the read-modify-write of a bank's bit leaves the vector with that bit. -/
theorem vectorAfter_eq_setBank (s : State) (v : BitVec 28) (b : Nat) (on : Bool) :
    vectorAfter s v (if on then 0 else bitWord b) (if on then bitWord b else 0) = setBank s.params v b on := by
  apply BitVec.eq_of_getLsbD_eq
  intro k _
  rw [getLsbD_setBank]
  by_cases hk : k < s.params.nbanks.toNat
  · have h32 : k < 32 := lt_32_of_bank hk
    rw [getLsbD_vectorAfter _ _ _ _ _ hk]
    rcases eq_or_ne k b with rfl | hb
    · cases on <;> simp [getLsbD_bitWord, hk, h32, -BitVec.getLsbD_eq_getElem]
    · cases on <;> simp [getLsbD_bitWord, hk, h32, hb, -BitVec.getLsbD_eq_getElem]
  · simp [vectorAfter, getLsbD_bankBits, hk, -BitVec.getLsbD_eq_getElem]

/-- The vector is a field of the filter block, read by `get` and replaced by `put`, that a read-modify-write of r
rewrites while the latch is held. -/
theorem thenBankBit_rewrites {r : Reg} (get : FilterBlock → BitVec 28) (put : FilterBlock → BitVec 28 → FilterBlock)
    (hrmw : ∀ {s : State} (clr set : Word), accessible s i .fmr = true → s.filter.finit = true →
      atOnce.rmw i r clr set s = .ok ((), (afterGap (s.takeDraws 1)).setFilter
        (put s.filter (vectorAfter s (get s.filter) clr set)))) (b : Nat) (on : Bool) (hl : fl.finit = true) :
    (thenBankBit atOnce i r (bitWord b) on).Rewrites i u 1 fl (put fl (setBank u (get fl) b on)) := by
  have hp : thenBankBit atOnce i r (bitWord b) on =
      atOnce.thenRmw i r (if on then 0 else bitWord b) (if on then bitWord b else 0) := by cases on <;> rfl
  rw [hp]
  refine thenRmw_rewrites (rmw_rewrites fun s hu ha hf => ?_)
  subst hu hf
  rw [hrmw _ _ ha hl, vectorAfter_eq_setBank]

theorem thenBankBit_fs1r (b : Nat) (on : Bool) (hl : fl.finit = true) :
    (thenBankBit atOnce i .fs1r (bitWord b) on).Rewrites i u 1 fl { fl with fsc := setBank u fl.fsc b on } :=
  thenBankBit_rewrites (·.fsc) (fun fl v => { fl with fsc := v }) rmw_fs1r b on hl

theorem thenBankBit_fm1r (b : Nat) (on : Bool) (hl : fl.finit = true) :
    (thenBankBit atOnce i .fm1r (bitWord b) on).Rewrites i u 1 fl { fl with fbm := setBank u fl.fbm b on } :=
  thenBankBit_rewrites (·.fbm) (fun fl v => { fl with fbm := v }) rmw_fm1r b on hl

theorem thenBankBit_ffa1r (b : Nat) (on : Bool) (hl : fl.finit = true) :
    (thenBankBit atOnce i .ffa1r (bitWord b) on).Rewrites i u 1 fl { fl with ffa := setBank u fl.ffa b on } :=
  thenBankBit_rewrites (·.ffa) (fun fl v => { fl with ffa := v }) rmw_ffa1r b on hl

theorem thenBankBit_fa1r (b : Nat) (on : Bool) (hl : fl.finit = true) :
    (thenBankBit atOnce i .fa1r (bitWord b) on).Rewrites i u 1 fl { fl with fact := setBank u fl.fact b on } :=
  thenBankBit_rewrites (·.fact) (fun fl v => { fl with fact := v }) rmw_fa1r b on hl

/-! ### The content words -/

theorem thenWrite_fr_rewrites (b : Fin 28) (k : WordIx) (v : Word) (hb : b.val < u.nbanks.toNat)
    (hl : fl.finit = true) :
    (atOnce.thenWrite i (.fr b k) (.ofWord v)).Rewrites i u 0 fl { fl with fr := setWord fl.fr b k v } := by
  refine gap_rewrites.bind (regWrite_rewrites fun s hu ha hf => ?_)
  subst hu hf
  refine regWrite_ok (accessible_fr_of_fmr k ha hb) ?_
  rw [writeRule, writeFr, FilterBlock.ifLatched, if_pos hl]
  rfl

theorem setWord_both (fr : Vector BankWords 28) (b k : Fin 28) (reg1 reg2 : Word) :
    (setWord (setWord fr b .r1 reg1) b .r2 reg2)[k] = if k = b then { r1 := reg1, r2 := reg2 } else fr[k] := by
  by_cases hk : k = b
  · subst hk
    simp [setWord, BankWords.set]
  · have hne : b.val ≠ k.val := fun he => hk (Fin.ext he.symm)
    simp [setWord, Vector.getElem_set_ne, hk, hne]

/-! ## `configureFilter` (R314, R319) -/

/-- The filter block after `configureFilter`: bank b as given, the latch released. -/
def FilterBlock.configured (u : Params) (fl : FilterBlock) (b : Fin 28) (scale32 listMode : Bool) (reg1 reg2 : Word)
    (x : FifoIx) (enable : Bool) : FilterBlock where
  finit := false
  can2sb := fl.can2sb
  fbm := setBank u fl.fbm b.val listMode
  fsc := setBank u fl.fsc b.val scale32
  ffa := setBank u fl.ffa b.val (x == .f1)
  fact := setBank u fl.fact b.val enable
  fr := setWord (setWord fl.fr b .r1 reg1) b .r2 reg2

theorem configureBank_rewrites (b : Fin 28) (scale32 listMode : Bool) (reg1 reg2 : Word) (x : FifoIx) (enable : Bool)
    (hb : b.val < u.nbanks.toNat) :
    (configureBank atOnce i b scale32 listMode reg1 reg2 x enable).Rewrites i u (6 + if enable then 1 else 0) fl
      (fl.configured u b scale32 listMode reg1 reg2 x enable) := by
  -- The pieces up to the content words, which leave the latch held, and what follows them.
  have upToWords {q : Prog Unit} {n : Nat} {fl' : FilterBlock} (hq : q.Rewrites i u n _ fl') :=
    (hold_rewrites (i := i) (u := u) (fl := fl)).bind <| (thenBankBit_fa1r b.val false rfl).bind <|
    (thenBankBit_fs1r b.val scale32 rfl).bind <| (thenBankBit_fm1r b.val listMode rfl).bind <|
    (thenBankBit_ffa1r b.val (x == .f1) rfl).bind <| (thenWrite_fr_rewrites b .r1 reg1 hb rfl).bind <|
    (thenWrite_fr_rewrites b .r2 reg2 hb rfl).bind hq
  cases enable with
  | false => exact upToWords release_rewrites
  | true =>
    rw [FilterBlock.configured, ← setBank_setBank u fl.fact b.val false true]
    exact upToWords ((thenBankBit_fa1r b.val true rfl).bind release_rewrites)

end

theorem bankOf_val {u : Params} {b : Fin 28} (hb : b.val < u.nbanks.toNat) : bankOf u b.val = some b := by
  rw [bankOf, dif_pos b.isLt, if_pos hb]

theorem bankOf_missing {u : Params} {bank : Nat} (h : u.nbanks.toNat ≤ bank) : bankOf u bank = none := by
  simp [bankOf, Nat.not_lt.2 h]

theorem exists_bank {u : Params} {bank : Nat} (h : bank < u.nbanks.toNat) : ∃ b : Fin 28, b.val = bank :=
  ⟨⟨bank, h.trans_le (by cases u.nbanks <;> decide)⟩, rfl⟩

theorem fifoOfNat_toNat (x : FifoIx) : FifoIx.ofNat? x.toNat = some x := by cases x <;> rfl

theorem fifoOfNat_missing {n : Nat} (h : 2 ≤ n) : FifoIx.ofNat? n = none := by
  match n with
  | _ + 2 => rfl

theorem exists_fifo {n : Nat} (h : n < 2) : ∃ x : FifoIx, x.toNat = n := by
  match n with
  | 0 => exact ⟨.f0, rfl⟩
  | 1 => exact ⟨.f1, rfl⟩

/-- Through the owner's window, for a bank and a FIFO that exist: one next state, whatever operation it is called as. -/
theorem configureFilter_ok {s : State} {i : Inst} {b : Fin 28} (scale32 listMode : Bool) (reg1 reg2 : Word) (x : FifoIx)
    (enable : Bool) (h : accessible s i .fmr = true) (hb : b.val < s.params.nbanks.toNat) :
    ∃ t, (∀ self, runUnit (configureFilter atOnce self i b.val scale32 listMode reg1 reg2 x.toNat enable) s
        = .next (t.returning .none)) ∧
      t.filter = s.filter.configured s.params b scale32 listMode reg1 reg2 x enable ∧
      Advanced (6 + if enable then 1 else 0) s t := by
  obtain ⟨t, ht, hf, hadv⟩ := configureBank_rewrites b scale32 listMode reg1 reg2 x enable hb s rfl h rfl
  refine ⟨t, fun self => runUnit_ok ?_, hf, hadv⟩
  rw [configureFilter, Prog.bind_ok (atOnce_params_eq s), bankOf_val hb, fifoOfNat_toNat]
  exact ht

/-- The bank number is checked first, then the FIFO number. -/
theorem configureFilter_checks (s : State) (self : Instr) (i : Inst) (bank fifoId : Nat) (scale32 listMode : Bool)
    (reg1 reg2 : Word) (enable : Bool) :
    (s.params.nbanks.toNat ≤ bank →
      runUnit (configureFilter atOnce self i bank scale32 listMode reg1 reg2 fifoId enable) s
        = .fault (.bankOutOfRange (.operation self))) ∧
    (bank < s.params.nbanks.toNat → 2 ≤ fifoId →
      runUnit (configureFilter atOnce self i bank scale32 listMode reg1 reg2 fifoId enable) s
        = .fault (.badFifoId (.operation self))) := by
  refine ⟨fun hbank => runUnit_fault ?_, fun hbank hfifo => runUnit_fault ?_⟩ <;>
    rw [configureFilter, Prog.bind_ok (atOnce_params_eq s)]
  · rw [bankOf_missing hbank]
    rfl
  · obtain ⟨b, rfl⟩ := exists_bank hbank
    rw [bankOf_val hbank, fifoOfNat_missing hfifo]
    rfl

theorem exec_opConfigureFilter (i : Inst) (bank : Nat) (scale32 listMode : Bool) (reg1 reg2 : Word) (fifoId : Nat)
    (enable : Bool) (s : State) :
    exec (.opConfigureFilter i bank scale32 listMode reg1 reg2 fifoId enable) s = runUnit (configureFilter atOnce
      (.opConfigureFilter i bank scale32 listMode reg1 reg2 fifoId enable) i bank scale32 listMode reg1 reg2 fifoId
      enable) s := rfl

theorem agentSteps_filter (l : List AgentStep) (s : State) : (agentSteps l s).filter = s.filter :=
  agentSteps_keeps (·.filter = s.filter) (fun a t h => by rw [agentStep_filter, h]) l s rfl

/-- The vectors of a configured block, by the bits of the banks that exist. -/
theorem FilterBlock.configured_bits (fl : FilterBlock) {u : Params} (b : Fin 28) (scale32 listMode : Bool)
    (reg1 reg2 : Word) (x : FifoIx) (enable : Bool) {k : Nat} (hk : k < u.nbanks.toNat) :
    let fl' := fl.configured u b scale32 listMode reg1 reg2 x enable
    fl'.fsc.getLsbD k = (if k = b.val then scale32 else fl.fsc.getLsbD k) ∧
      fl'.fbm.getLsbD k = (if k = b.val then listMode else fl.fbm.getLsbD k) ∧
      fl'.ffa.getLsbD k = (if k = b.val then decide (x = .f1) else fl.ffa.getLsbD k) ∧
      fl'.fact.getLsbD k = (if k = b.val then enable else fl.fact.getLsbD k) := by
  simp only [configured, getLsbD_setBank, hk, decide_true, Bool.true_and, beq_eq_decide, and_self]

/-- Settles O32: the operation's pieces rewrite the filter block to the configured one. -/
theorem configureFilterRoundTrip : Obligations.ConfigureFilterRoundTrip := by
  intro s i b scale32 listMode reg1 reg2 x enable h hb
  obtain ⟨t, ht, hf, hadv⟩ := configureFilter_ok scale32 listMode reg1 reg2 x enable h hb
  have hfl : (t.returning .none).filter = s.filter.configured s.params b scale32 listMode reg1 reg2 x enable := hf
  refine ⟨t.returning .none, ht _, ?_⟩
  rw [hfl]
  exact ⟨rfl, rfl, fun k hk => s.filter.configured_bits b scale32 listMode reg1 reg2 x enable hk,
    fun k => setWord_both .., fun l => (agentSteps_filter l _).trans hfl, hadv.params, hadv.program, rfl,
    by rw [State.returning_draws, hadv.draws, Nat.add_assoc], hadv.quiet⟩

/-! ## The helpers (R315 to R318) -/

theorem fieldAt_or_eq_append (high low : Half) : fieldAt high 16 ||| fieldAt low 0 = high ++ low := by
  apply BitVec.eq_of_getLsbD_eq
  intro j hj
  rw [BitVec.getLsbD_or, getLsbD_fieldAt, getLsbD_fieldAt, BitVec.getLsbD_append]
  by_cases hlow : j < 16
  · simp [hj, hlow, Nat.not_le.2 hlow, -BitVec.getLsbD_eq_getElem]
  · simp [hj, hlow, Nat.le_of_not_lt hlow, -BitVec.getLsbD_eq_getElem]

theorem packShifted_eq_ofNat (u : Params) (v : Word) :
    packShifted u v = BitVec.ofNat 32 (v.toNat * 2 ^ u.packShift) := by
  apply BitVec.eq_of_toNat_eq
  rw [packShifted, BitVec.toNat_shiftLeft, Nat.shiftLeft_eq, BitVec.toNat_ofNat]

theorem runUnit_params {f : Params → Prog Unit} {s : State} :
    runUnit (do let u ← atOnce.params; f u) s = runUnit (f s.params) s := rfl

theorem exec_opFilterIdMask16 (i : Inst) (bank : Nat) (id1 mask1 id2 mask2 : Half) (fifoId : Nat) (enable : Bool)
    (s : State) : exec (.opFilterIdMask16 i bank id1 mask1 id2 mask2 fifoId enable) s =
      runUnit (configureFilter atOnce (.opFilterIdMask16 i bank id1 mask1 id2 mask2 fifoId enable) i bank false false
        (mask1 ++ id1) (mask2 ++ id2) fifoId enable) s := by
  rw [← fieldAt_or_eq_append, ← fieldAt_or_eq_append]
  rfl

theorem exec_opFilterIdMask32 (i : Inst) (bank : Nat) (id mask : Word) (fifoId : Nat) (enable : Bool) (s : State) :
    exec (.opFilterIdMask32 i bank id mask fifoId enable) s =
      runUnit (configureFilter atOnce (.opFilterIdMask32 i bank id mask fifoId enable) i bank true false
        (BitVec.ofNat 32 (id.toNat * 2 ^ s.params.packShift)) (BitVec.ofNat 32 (mask.toNat * 2 ^ s.params.packShift))
        fifoId enable) s := by
  rw [← packShifted_eq_ofNat, ← packShifted_eq_ofNat]
  exact runUnit_params

theorem exec_opFilterIdList16 (i : Inst) (bank : Nat) (id1 id2 id3 id4 : Half) (fifoId : Nat) (enable : Bool)
    (s : State) : exec (.opFilterIdList16 i bank id1 id2 id3 id4 fifoId enable) s =
      runUnit (configureFilter atOnce (.opFilterIdList16 i bank id1 id2 id3 id4 fifoId enable) i bank false true
        (id1 ++ id2) (id3 ++ id4) fifoId enable) s := by
  rw [← fieldAt_or_eq_append, ← fieldAt_or_eq_append]
  rfl

theorem exec_opFilterIdList32 (i : Inst) (bank : Nat) (id1 id2 : Word) (fifoId : Nat) (enable : Bool) (s : State) :
    exec (.opFilterIdList32 i bank id1 id2 fifoId enable) s =
      runUnit (configureFilter atOnce (.opFilterIdList32 i bank id1 id2 fifoId enable) i bank true true
        (BitVec.ofNat 32 (id1.toNat * 2 ^ s.params.packShift)) (BitVec.ofNat 32 (id2.toNat * 2 ^ s.params.packShift))
        fifoId enable) s := by
  rw [← packShifted_eq_ofNat, ← packShifted_eq_ofNat]
  exact runUnit_params

/-- Settles O33: each helper is `configureFilter` under its own name on the words it packs. -/
theorem filterHelpersPackTheirArguments : Obligations.FilterHelpersPackTheirArguments := by
  intro s i bank fifoId enable h hbank hfifo same shift
  have hsame {helper : Instr} {scale32 listMode : Bool} {reg1 reg2 : Word}
      (he : exec helper s =
        runUnit (configureFilter atOnce helper i bank scale32 listMode reg1 reg2 fifoId enable) s) :
      same helper scale32 listMode reg1 reg2 := by
    obtain ⟨b, rfl⟩ := exists_bank hbank
    obtain ⟨x, rfl⟩ := exists_fifo hfifo
    obtain ⟨t, ht, -⟩ := configureFilter_ok scale32 listMode reg1 reg2 x enable h hbank
    exact ⟨_, he.trans (ht helper), ht _⟩
  exact ⟨fun _ _ _ _ => hsame (exec_opFilterIdMask16 ..),
    fun _ _ => hsame (exec_opFilterIdMask32 ..),
    fun _ _ _ _ => hsame (exec_opFilterIdList16 ..),
    fun _ _ => hsame (exec_opFilterIdList32 ..)⟩

/-- Settles O34: each operation is `configureFilter` under its own name, whose checks come first. -/
theorem filterOperationsCheckTheirArguments : Obligations.FilterOperationsCheckTheirArguments := by
  intro s i bank fifoId scale32 listMode enable reg1 reg2 id1 id2 id3 id4 fails
  have hfails {ins : Instr} {scale32 listMode : Bool} {reg1 reg2 : Word}
      (he : exec ins s = runUnit (configureFilter atOnce ins i bank scale32 listMode reg1 reg2 fifoId enable) s) :
      fails ins := by
    simp only [fails, he]
    exact configureFilter_checks ..
  exact ⟨hfails (exec_opConfigureFilter ..), hfails (exec_opFilterIdMask16 ..), hfails (exec_opFilterIdMask32 ..),
    hfails (exec_opFilterIdList16 ..), hfails (exec_opFilterIdList32 ..)⟩

end Sys2Proof.Machine

/-! PROOFS. Transmission (43_transmit.md): TSR and the mailbox registers, the mailbox scan, `transmit`, and the attempt
and abort steps of the transmitter. -/

namespace Sys2Proof.Machine

/-! ## TSR (R350, R351) -/

/-- The bits of TSR that mailbox x gives (R37). -/
theorem readTsr_bits (c : Controller) (d : Word) (x : MbIx) :
    (readTsr c d).bit (8 * x.toNat) = (c.mb x).rqcp ∧ (readTsr c d).bit (8 * x.toNat + 1) = (c.mb x).txok ∧
      (readTsr c d).bit (8 * x.toNat + 2) = (c.mb x).alst ∧ (readTsr c d).bit (8 * x.toNat + 3) = (c.mb x).terr ∧
      (readTsr c d).bit (8 * x.toNat + 7) = (c.mb x).abrq ∧
      (readTsr c d).bit (26 + x.toNat) = !(c.mb x).pending := by
  cases x with
  | m0 => exact ⟨readTsr_bit0 c d, readTsr_bit1 c d, readTsr_bit2 c d, readTsr_bit3 c d, readTsr_bit7 c d,
      readTsr_bit26 c d⟩
  | m1 => exact ⟨readTsr_bit8 c d, readTsr_bit9 c d, readTsr_bit10 c d, readTsr_bit11 c d, readTsr_bit15 c d,
      readTsr_bit27 c d⟩
  | m2 => exact ⟨readTsr_bit16 c d, readTsr_bit17 c d, readTsr_bit18 c d, readTsr_bit19 c d, readTsr_bit23 c d,
      readTsr_bit28 c d⟩

/-- Settles O46: each mailbox's bits of the word read, and the write rule of each mailbox's status. -/
theorem tsrReadAndWrite : Obligations.TsrReadAndWrite := by
  intro s i v h c written
  refine ⟨⟨_, exec_rd_ok (r := .tsr) h, rfl, fun x => ?_⟩, exec_wr_ok (r := .tsr) h ?_⟩
  · simp only [← BusWord.bit_eq_word]
    exact readTsr_bits c _ x
  · simp only [writeRule, writeTsr, Mailbox.writeStatus, BusWord.ofWord_bit]
    rfl

/-! ## The registers of a mailbox (R352 to R355) -/

/-- Settles O47: the fields of each register's read rule. -/
theorem mailboxRegistersRead : Obligations.MailboxRegistersRead := by
  intro s i x h m reads
  have hreads {P : BusWord → Prop} (r : Reg) (hr : accessible s i r = true)
      (hP : P (readRule s i (Config.draw s.draws) r)) : reads r P := ⟨_, exec_rd_ok hr, hP⟩
  refine ⟨hreads (.tir x) h ?_, hreads (.tdtr x) h ?_, hreads (.tdlr x) h ⟨BusWord.ofWord_word _, rfl⟩,
    hreads (.tdhr x) h ⟨BusWord.ofWord_word _, rfl⟩⟩
  · rw [← BusWord.field_eq_word, ← BusWord.bit_eq_word]
    exact ⟨readTir_field_1_31 m, readTir_bit0 m, rfl⟩
  · rw [← BusWord.field_eq_word, ← BusWord.bit_eq_word, ← BusWord.field_eq_word]
    exact ⟨readTdtr_field_0_4 m _, readTdtr_bit8 m _, readTdtr_field_16_16 m _, rfl⟩

/-- The registers of mailbox x. -/
def mailboxRegs (x : MbIx) : List Reg := [.tir x, .tdtr x, .tdlr x, .tdhr x]

theorem mem_mailboxRegs {x : MbIx} {r : Reg} :
    r ∈ mailboxRegs x ↔ r = .tir x ∨ r = .tdtr x ∨ r = .tdlr x ∨ r = .tdhr x := by
  simp [mailboxRegs]

theorem tir_mem_mailboxRegs (x : MbIx) : .tir x ∈ mailboxRegs x := mem_mailboxRegs.2 (.inl rfl)

theorem tdtr_mem_mailboxRegs (x : MbIx) : .tdtr x ∈ mailboxRegs x := mem_mailboxRegs.2 (.inr (.inl rfl))

theorem tdlr_mem_mailboxRegs (x : MbIx) : .tdlr x ∈ mailboxRegs x := mem_mailboxRegs.2 (.inr (.inr (.inl rfl)))

theorem tdhr_mem_mailboxRegs (x : MbIx) : .tdhr x ∈ mailboxRegs x := mem_mailboxRegs.2 (.inr (.inr (.inr rfl)))

/-- What a word written to a register of an empty mailbox leaves there (R353 to R355). -/
def Mailbox.stored (m : Mailbox) (v : BusWord) : Reg → Mailbox
  | .tir _ => if v.bit 0 then { m with tir := v.field 1 31 }.request else { m with tir := v.field 1 31 }
  | .tdtr _ => { m with dlc := v.field 0 4, tgt := v.bit 8, time := v.field 16 16 }
  | .tdlr _ => { m with dlo := v.whole }
  | .tdhr _ => { m with dhi := v.whole }
  | _ => m

theorem Mailbox.ifEmpty_of_empty {m : Mailbox} (a : Access) (m' : Mailbox) (h : m.pending = false) :
    m.ifEmpty a m' = .ok m' := by
  rw [ifEmpty, h]
  rfl

theorem Mailbox.ifEmpty_of_pending {m : Mailbox} (a : Access) (m' : Mailbox) (h : m.pending = true) :
    m.ifEmpty a m' = .error (.fault (.mailboxWriteWhilePending (.access a))) := if_pos h

/-- The write rule of a mailbox register: the mailbox has to be empty. -/
theorem writeRule_mailbox (a : Access) (s : State) (i : Inst) (v : BusWord) {x : MbIx} {r : Reg}
    (hr : r ∈ mailboxRegs x) : writeRule a s i v r = (((s.can i).mb x).ifEmpty a (((s.can i).mb x).stored v r)).map
      fun m => s.setCan i ((s.can i).setMb x m) := by
  rcases mem_mailboxRegs.1 hr with rfl | rfl | rfl | rfl <;> rfl

theorem writeRule_mailbox_ok (a : Access) {s : State} {i : Inst} (v : BusWord) {x : MbIx} {r : Reg}
    (hr : r ∈ mailboxRegs x) (h : ((s.can i).mb x).pending = false) :
    writeRule a s i v r = .ok (s.setCan i ((s.can i).setMb x (((s.can i).mb x).stored v r))) := by
  rw [writeRule_mailbox a s i v hr, Mailbox.ifEmpty_of_empty a _ h]
  rfl

theorem writeRule_mailbox_stop (a : Access) {s : State} {i : Inst} (v : BusWord) {x : MbIx} {r : Reg}
    (hr : r ∈ mailboxRegs x) (h : ((s.can i).mb x).pending = true) :
    writeRule a s i v r = .error (.fault (.mailboxWriteWhilePending (.access a))) := by
  rw [writeRule_mailbox a s i v hr, Mailbox.ifEmpty_of_pending a _ h]
  rfl

/-- The registers of a mailbox are decoded in every window. -/
theorem accessible_mailbox (s : State) (i : Inst) {x : MbIx} {r : Reg} (hr : r ∈ mailboxRegs x) :
    accessible s i r = accessible s i .tsr := by
  rcases mem_mailboxRegs.1 hr with rfl | rfl | rfl | rfl <;> rfl

/-- Settles O48: the two cases of the write rule of a mailbox register. -/
theorem mailboxRegistersWrite : Obligations.MailboxRegistersWrite := by
  intro s i x v h m leaves
  have hacc {r : Reg} (hr : r ∈ mailboxRegs x) : accessible s i r = true := by rwa [accessible_mailbox s i hr]
  refine ⟨fun hempty => ?_, fun hpending r hr => exec_wr_fault (hacc hr) (writeRule_mailbox_stop _ _ hr hpending)⟩
  have hleaves {r : Reg} (hr : r ∈ mailboxRegs x) : leaves r (m.stored (.ofWord v) r) :=
    exec_wr_ok (hacc hr) (writeRule_mailbox_ok _ _ hr hempty)
  have htir := hleaves (tir_mem_mailboxRegs x)
  have htdtr := hleaves (tdtr_mem_mailboxRegs x)
  simp only [Mailbox.stored, BusWord.ofWord_bit, BusWord.ofWord_field] at htir htdtr
  refine ⟨fun h0 => ?_, fun h0 => ?_, htdtr, hleaves (tdlr_mem_mailboxRegs x),
    hleaves (tdhr_mem_mailboxRegs x)⟩
  · rwa [h0] at htir
  · rwa [h0] at htir

/-! ## The mailbox scan (R359, R363) -/

/-- The scan of a TSR word is the scan of the mailboxes at its read. -/
theorem firstEmpty_readTsr (c : Controller) (d : Word) : firstEmpty (readTsr c d) = c.lowestEmpty := by
  simp only [firstEmpty, readTsr_bit26, readTsr_bit27, readTsr_bit28, Controller.lowestEmpty, Bool.not_eq_true']

theorem Controller.lowestEmpty_eq_none_iff (c : Controller) :
    c.lowestEmpty = none ↔ c.mb0.pending = true ∧ c.mb1.pending = true ∧ c.mb2.pending = true := by
  unfold Controller.lowestEmpty
  cases c.mb0.pending <;> cases c.mb1.pending <;> cases c.mb2.pending <;> decide

/-- The scan finds an empty mailbox. -/
theorem Controller.pending_of_lowestEmpty {c : Controller} {x : MbIx} (h : c.lowestEmpty = some x) :
    (c.mb x).pending = false := by
  unfold Controller.lowestEmpty at h
  split at h
  · next h0 => cases h; exact h0
  split at h
  · next h1 => cases h; exact h1
  split at h
  · next h2 => cases h; exact h2
  · cases h

theorem ne_zero_of_bits (v : BitVec 3) : (v != 0) = (v.getLsbD 0 || v.getLsbD 1 || v.getLsbD 2) := by
  revert v
  decide

/-- `availableMailbox` asks TME0 to TME2 of the same word whether the scan finds one. -/
theorem readTsr_available (c : Controller) (d : Word) :
    ((readTsr c d).field 26 3 != 0) = decide (c.lowestEmpty ≠ none) := by
  have htme : ((readTsr c d).field 26 3 != 0) = (!c.mb0.pending || !c.mb1.pending || !c.mb2.pending) := by
    rw [← readTsr_bit26 c d, ← readTsr_bit27 c d, ← readTsr_bit28 c d, ne_zero_of_bits]
    simp only [BusWord.field_eq_word, BusWord.bit_eq_word, BitVec.getLsbD_extractLsb']
    rfl
  rw [htme]
  simp only [ne_eq, Controller.lowestEmpty_eq_none_iff]
  cases c.mb0.pending <;> cases c.mb1.pending <;> cases c.mb2.pending <;> rfl

/-- With no empty mailbox `transmit` ends after its read. -/
theorem transmitCall_none {s : State} {i : Inst} (id : Word) (ext rtr : Bool) (length : Nat) (data : List Byte)
    (h : accessible s i .tsr = true) (hnone : (s.can i).lowestEmpty = none) :
    transmitCall atOnce i id ext rtr length data s = .ok (.int (-1), s.takeDraws 1) := by
  rw [transmitCall, Prog.bind_ok (a := -1) (s' := s.takeDraws 1)]
  · rfl
  rw [transmitProg, atOnce_read, Prog.bind_ok (regRead_ok h), readRule, firstEmpty_readTsr, hnone]
  rfl

/-- Settles O49: each operation is one read of TSR, whose TME bits show the mailboxes. -/
theorem mailboxScanIsFirstFit : Obligations.MailboxScanIsFirstFit := by
  intro s i h
  have hscan {f : BusWord → Result} : finish (do let t ← regRead i .tsr; pure (f t)) s =
      .next ((s.takeDraws 1).returning (f (readTsr (s.can i) (Config.draw s.draws)))) :=
    finish_ok (by rw [Prog.bind_ok (regRead_ok h)]; rfl)
  refine ⟨?_, ?_, fun hall id ext rtr length data => finish_ok (transmitCall_none id ext rtr length data h ?_)⟩
  · rw [← firstEmpty_readTsr _ (Config.draw s.draws)]
    exact hscan
  · rw [← readTsr_available _ (Config.draw s.draws)]
    exact hscan
  · exact (Controller.lowestEmpty_eq_none_iff _).2 ⟨hall .m0, hall .m1, hall .m2⟩

/-! ## Host steps of `transmit` (R360) -/

/-- What a piece of `transmit` into mailbox x leaves besides that mailbox: n draws are taken, and agents may have
stepped. -/
structure FilledOnly (i : Inst) (x : MbIx) (n : Nat) (s t : State) : Prop where
  params : t.params = s.params
  filter : t.filter = s.filter
  program : t.program = s.program
  draws : t.draws = s.draws + n
  resetAsserted : (t.can i).resetAsserted = (s.can i).resetAsserted
  quiet : s.gaps = [] → ∃ m, t = (s.setCan i ((s.can i).setMb x m)).takeDraws n

section
variable {i : Inst} {x : MbIx}

theorem FilledOnly.trans {n k : Nat} {s t u : State} (h : FilledOnly i x n s t) (h' : FilledOnly i x k t u) :
    FilledOnly i x (n + k) s u where
  params := h'.params.trans h.params
  filter := h'.filter.trans h.filter
  program := h'.program.trans h.program
  draws := by rw [h'.draws, h.draws, Nat.add_assoc]
  resetAsserted := h'.resetAsserted.trans h.resetAsserted
  quiet hg := by
    obtain ⟨m, rfl⟩ := h.quiet hg
    obtain ⟨m', rfl⟩ := h'.quiet (by simpa using hg)
    exact ⟨m', by simp⟩

theorem FilledOnly.accessible {n : Nat} {s t : State} (h : FilledOnly i x n s t) :
    accessible t i .tsr = accessible s i .tsr := by
  simp only [Machine.accessible, h.params, h.resetAsserted]

theorem filledOnly_takeDraws (s : State) (n : Nat) : FilledOnly i x n s (s.takeDraws n) :=
  ⟨rfl, rfl, rfl, rfl, by rw [State.can_takeDraws], fun _ => ⟨(s.can i).mb x, by simp⟩⟩

theorem filledOnly_afterGap (s : State) : FilledOnly i x 0 s (afterGap s) :=
  ⟨afterGap_params s, afterGap_filter s, afterGap_program s, afterGap_draws s, afterGap_resetAsserted s i,
    fun hg => ⟨(s.can i).mb x, by simp [afterGap_of_ended s hg]⟩⟩

theorem filledOnly_setMb (s : State) (m : Mailbox) : FilledOnly i x 0 s (s.setCan i ((s.can i).setMb x m)) :=
  ⟨by simp, by simp, by simp, by simp, by simp, fun _ => ⟨m, by simp⟩⟩

/-- Through an open window, a piece that finds m in mailbox x completes with n draws and leaves there what Q says. -/
def Prog.Fills (p : Prog Unit) (i : Inst) (x : MbIx) (n : Nat) (m : Mailbox) (Q : Mailbox → Prop) : Prop :=
  ∀ s, accessible s i .tsr = true → (s.can i).mb x = m →
    ∃ t, p s = .ok ((), t) ∧ Q ((t.can i).mb x) ∧ FilledOnly i x n s t

variable {m m' : Mailbox} {n k : Nat} {Q : Mailbox → Prop}

theorem Prog.Fills.bind {p q : Prog Unit} (hp : p.Fills i x n m (· = m')) (hq : q.Fills i x k m' Q) :
    (do p; q : Prog Unit).Fills i x (n + k) m Q := by
  intro s ha hm
  obtain ⟨t, ht, hm', honly⟩ := hp s ha hm
  obtain ⟨t', ht', hQ, honly'⟩ := hq t (by rwa [honly.accessible]) hm'
  exact ⟨t', by rw [Prog.bind_ok ht, ht'], hQ, honly.trans honly'⟩

theorem Prog.Fills.mono {p : Prog Unit} {Q' : Mailbox → Prop} (h : p.Fills i x n m Q) (hQ : ∀ m', Q m' → Q' m') :
    p.Fills i x n m Q' := by
  intro s ha hm
  obtain ⟨t, ht, hQt, honly⟩ := h s ha hm
  exact ⟨t, ht, hQ _ hQt, honly⟩

/-- A piece that only takes a draw, and answers a value with the property P, before more. -/
theorem Prog.Fills.afterDraw {α : Type} {p : Prog α} {q : α → Prog Unit} (P : α → Prop)
    (hp : ∀ s, accessible s i .tsr = true → (s.can i).mb x = m → ∃ a, P a ∧ p s = .ok (a, s.takeDraws 1))
    (hq : ∀ a, P a → (q a).Fills i x n m Q) : (p >>= q).Fills i x (1 + n) m Q := by
  intro s ha hm
  obtain ⟨a, hPa, hs⟩ := hp s ha hm
  obtain ⟨t, ht, hQ, honly⟩ := hq a hPa (s.takeDraws 1) (by rwa [accessible_takeDraws]) (by rwa [State.can_takeDraws])
  exact ⟨t, by rw [Prog.bind_ok hs, ht], hQ, (filledOnly_takeDraws s 1).trans honly⟩

theorem takeDraw_fills {q : Word → Prog Unit} (hq : ∀ d, (q d).Fills i x n m Q) :
    (do let d ← takeDraw; q d : Prog Unit).Fills i x (1 + n) m Q :=
  .afterDraw (fun _ => True) (fun _ _ _ => ⟨_, trivial, rfl⟩) fun d _ => hq d

/-- No agent touches an empty mailbox. -/
theorem gap_fills (h : m.pending = false) : gap.Fills i x 0 m (· = m) := by
  intro s ha hm
  subst hm
  exact ⟨_, gap_eq s, afterGap_mb_of_empty s i x h, filledOnly_afterGap s⟩

theorem regWrite_fills {r : Reg} (v : BusWord) (hr : r ∈ mailboxRegs x) (h : m.pending = false) :
    (regWrite i r v).Fills i x 0 m (· = m.stored v r) := by
  intro s ha hm
  subst hm
  refine ⟨_, regWrite_ok ?_ (writeRule_mailbox_ok _ v hr h), by simp, filledOnly_setMb s _⟩
  rwa [accessible_mailbox s i hr]

theorem thenWrite_fills {r : Reg} (v : BusWord) (hr : r ∈ mailboxRegs x) (h : m.pending = false) :
    (atOnce.thenWrite i r v).Fills i x 0 m (· = m.stored v r) :=
  (gap_fills h).bind (regWrite_fills v hr h)

/-- A read-modify-write writes the empty mailbox the word it read, changed. -/
theorem thenRmw_fills {r : Reg} {clr set : Word} (hr : r ∈ mailboxRegs x) (h : m.pending = false)
    (hw : ∀ s, (s.can i).mb x = m → m.stored ((readRule s i (Config.draw s.draws) r).update clr set) r = m') :
    (atOnce.thenRmw i r clr set).Fills i x 1 m (· = m') := by
  have hrmw : (atOnce.rmw i r clr set).Fills i x 1 m (· = m') :=
    .afterDraw (fun w => m.stored (w.update clr set) r = m')
      (fun s ha hm => ⟨_, hw s hm, regRead_ok (by rwa [accessible_mailbox s i hr])⟩)
      fun w hw => hw ▸ thenWrite_fills (w.update clr set) hr h
  have hthen := (gap_fills h).bind hrmw
  rwa [Nat.zero_add] at hthen

/-! ### The words of `transmit` -/

/-- TIxR of an empty mailbox with some bits set, read back and written. -/
theorem stored_tir_update (y : MbIx) (set : Word) (h : m.pending = false) :
    m.stored ((readTir m).update 0 set) (.tir y) =
      if set.getLsbD 0 then { m with tir := m.tir ||| set.extractLsb' 1 31 }.request
      else { m with tir := m.tir ||| set.extractLsb' 1 31 } := by
  have hfield : ((readTir m).update 0 set).field 1 31 = m.tir ||| set.extractLsb' 1 31 := by
    rw [BusWord.field_eq_word, BusWord.word_update, show ~~~(0 : Word) = BitVec.allOnes 32 from rfl,
      BitVec.and_allOnes, BitVec.extractLsb'_or, ← BusWord.field_eq_word, readTir_field_1_31]
  have hbit : ((readTir m).update 0 set).bit 0 = set.getLsbD 0 := by
    rw [BusWord.update_bit _ _ _ _ (by decide), readTir_bit0, h, Bool.false_and, Bool.false_or]
  rw [Mailbox.stored, hfield, hbit]

theorem ofNat_length_mod (length lo n : Nat) (h : 4 ≤ lo) :
    (BitVec.ofNat 32 (length % 16)).extractLsb' lo n = 0 := by
  apply BitVec.eq_of_getLsbD_eq
  intro j hj
  rw [BitVec.getLsbD_extractLsb', BitVec.getLsbD_ofNat, Nat.testBit_lt_two_pow]
  · simp
  · exact (Nat.mod_lt _ (by decide)).trans_le (Nat.pow_le_pow_right (by decide) (h.trans (Nat.le_add_right lo j)) :
      2 ^ 4 ≤ 2 ^ (lo + j))

theorem stored_tdtr_update (y : MbIx) (d : Word) (length : Nat) :
    m.stored ((readTdtr m d).update 0xF (BitVec.ofNat 32 (length % 16))) (.tdtr y) =
      { m with dlc := BitVec.ofNat 4 length } := by
  have hdlc : ((readTdtr m d).update 0xF (BitVec.ofNat 32 (length % 16))).field 0 4 = BitVec.ofNat 4 length := by
    rw [BusWord.update_field_set _ _ _ _ _ (by decide) (by decide)]
    apply BitVec.eq_of_toNat_eq
    simp
  have htgt : ((readTdtr m d).update 0xF (BitVec.ofNat 32 (length % 16))).bit 8 = m.tgt := by
    rw [BusWord.update_bit _ _ _ _ (by decide), readTdtr_bit8,
      bits_of_field_zero (j := 0) (ofNat_length_mod length 8 1 (by decide)) (by decide)]
    simp
  have htime : ((readTdtr m d).update 0xF (BitVec.ofNat 32 (length % 16))).field 16 16 = m.time := by
    rw [BusWord.update_field_kept _ _ _ _ _ (by decide) (by decide) (ofNat_length_mod length 16 16 (by decide)),
      readTdtr_field_16_16]
  rw [Mailbox.stored, hdlc, htgt, htime]

/-- The identifier word requests nothing: its bit 0 is shifted in. -/
theorem identifierWord_bit0 (id : Word) (ext : Bool) : (identifierWord id ext).getLsbD 0 = false := by
  cases ext <;> simp [identifierWord]

theorem identifier_fills (id : Word) (ext : Bool) (h : m.pending = false) :
    (atOnce.thenWrite i (.tir x) (.ofWord (identifierWord id ext))).Fills i x 0 m
      (· = { m with tir := (identifierWord id ext).extractLsb' 1 31 }) := by
  have hw := thenWrite_fills (i := i) (.ofWord (identifierWord id ext)) (tir_mem_mailboxRegs x) h
  rwa [Mailbox.stored, BusWord.ofWord_bit, identifierWord_bit0, BusWord.ofWord_field] at hw

theorem rtrBit_fills (h : m.pending = false) : (atOnce.thenRmw i (.tir x) 0 0x2).Fills i x 1 m
    (· = { m with tir := m.tir ||| (0x2 : Word).extractLsb' 1 31 }) :=
  thenRmw_fills (tir_mem_mailboxRegs x) h fun s hm => by
    rw [readRule, hm, stored_tir_update _ _ h]
    rfl

theorem dlc_fills (length : Nat) (h : m.pending = false) :
    (atOnce.thenRmw i (.tdtr x) 0xF (BitVec.ofNat 32 (length % 16))).Fills i x 1 m
      (· = { m with dlc := BitVec.ofNat 4 length }) :=
  thenRmw_fills (tdtr_mem_mailboxRegs x) h fun s hm => by rw [readRule, hm, stored_tdtr_update]

theorem txrq_fills (h : m.pending = false) : (atOnce.thenRmw i (.tir x) 0 0x1).Fills i x 1 m (· = m.request) :=
  thenRmw_fills (tir_mem_mailboxRegs x) h fun s hm => by
    rw [readRule, hm, stored_tir_update _ _ h]
    simp

/-- A mailbox with a length and data words, handed to the transmitter. -/
def Mailbox.filled (m : Mailbox) (length : Nat) (dlo dhi : Word) : Mailbox :=
  { m with dlc := BitVec.ofNat 4 length, dlo, dhi }.request

/-- The length, the data words, whose bytes past the payload are draws, and the request. -/
theorem contents_fills (length : Nat) (data : List Byte) (h : m.pending = false) : (do
      atOnce.thenRmw i (.tdtr x) 0xF (BitVec.ofNat 32 (length % 16))
      let lo ← takeDraw
      let hi ← takeDraw
      atOnce.thenWrite i (.tdlr x) (payloadWord length data 0 lo)
      atOnce.thenWrite i (.tdhr x) (payloadWord length data 4 hi)
      atOnce.thenRmw i (.tir x) 0 0x1 : Prog Unit).Fills i x 4 m (fun m' => ∃ lo hi,
    m' = m.filled length (payloadWord length data 0 lo).word (payloadWord length data 4 hi).word) := by
  refine (dlc_fills length h).bind (k := 3) (takeDraw_fills fun lo => takeDraw_fills (n := 1) fun hi => ?_)
  have hlo := thenWrite_fills (i := i) (payloadWord length data 0 lo) (tdlr_mem_mailboxRegs x)
    (m := { m with dlc := BitVec.ofNat 4 length }) h
  refine (hlo.bind (Prog.Fills.bind (thenWrite_fills _ (tdhr_mem_mailboxRegs x) h) (txrq_fills h))).mono fun m' hm' =>
    ⟨lo, hi, ?_⟩
  rw [hm', ← BusWord.whole_eq_word, ← BusWord.whole_eq_word]
  rfl

/-- The identifier word, with RTR or without, then the contents. -/
theorem fillMailbox_fills (id : Word) (ext rtr : Bool) (length : Nat) (data : List Byte) (h : m.pending = false) :
    (fillMailbox atOnce i x id ext rtr length data).Fills i x (4 + if rtr then 1 else 0) m (fun m' => ∃ lo hi,
      m' = { m with tir := (identifierWord id ext ||| if rtr then 2#32 else 0#32).extractLsb' 1 31 }.filled length
        (payloadWord length data 0 lo).word (payloadWord length data 4 hi).word) := by
  have hid := identifier_fills (i := i) (x := x) id ext h
  cases rtr with
  | false =>
    rw [if_neg Bool.false_ne_true, if_neg Bool.false_ne_true, BitVec.or_zero]
    exact hid.bind (contents_fills length data h)
  | true =>
    rw [if_pos rfl, if_pos rfl, BitVec.extractLsb'_or]
    exact hid.bind (Prog.Fills.bind (rtrBit_fills h) (contents_fills length data h))

end

/-! ### The bytes of `transmit` -/

theorem unpackByte_word_of_defined (w : BusWord) (k : Nat) (h : unpackByte w.free k = 0) :
    unpackByte w.word k = unpackByte w.val k := by
  rw [unpackByte, ← BusWord.field_eq_word]
  exact if_pos h

/-- Byte j of four consecutive bytes packed. -/
theorem unpackByte_pack4_consecutive (f : Nat → Byte) (k : Nat) (j : Fin 4) :
    unpackByte (pack4 (f k) (f (k + 1)) (f (k + 2)) (f (k + 3))) j = f (k + j) := by
  obtain ⟨h0, h1, h2, h3⟩ := unpackByte_pack4 (f k) (f (k + 1)) (f (k + 2)) (f (k + 3))
  match j with
  | 0 => exact h0
  | 1 => exact h1
  | 2 => exact h2
  | 3 => exact h3

/-- The bytes the caller supplies are not drawn. -/
theorem unpackByte_payloadWord {length : Nat} {data : List Byte} (k : Nat) (j : Fin 4) (d : Word) {b : Byte}
    (h : suppliedByte length data (k + j) = some b) : unpackByte (payloadWord length data k d).word j = b := by
  have hval := unpackByte_pack4_consecutive (fun n => (suppliedByte length data n).getD 0) k j
  have hfree := unpackByte_pack4_consecutive (fun n => drawnBits (suppliedByte length data n)) k j
  simp only [h] at hval hfree
  rw [unpackByte_word_of_defined _ _ hfree]
  exact hval

theorem suppliedByte_of_lt {length : Nat} {data : List Byte} {k : Nat} (h : k < min length 8) :
    suppliedByte length data k = data[k]? := if_pos h

/-- The caller's bytes stand in the two data words. -/
theorem unpack8_payloadWord {length : Nat} {data : List Byte} (lo hi : Word) (hdata : min length 8 ≤ data.length)
    {k : Fin 8} (hk : k.val < min length 8) :
    some (unpack8 (payloadWord length data 0 lo).word (payloadWord length data 4 hi).word)[k] = data[k.val]? := by
  have hsupplied : suppliedByte length data k.val = some (data[k.val]'(hk.trans_le hdata)) := by
    rw [suppliedByte_of_lt hk, List.getElem?_eq_getElem]
  rw [List.getElem?_eq_getElem (hk.trans_le hdata)]
  congr 1
  match k with
  | 0 => exact unpackByte_payloadWord 0 0 lo hsupplied
  | 1 => exact unpackByte_payloadWord 0 1 lo hsupplied
  | 2 => exact unpackByte_payloadWord 0 2 lo hsupplied
  | 3 => exact unpackByte_payloadWord 0 3 lo hsupplied
  | 4 => exact unpackByte_payloadWord 4 0 hi hsupplied
  | 5 => exact unpackByte_payloadWord 4 1 hi hsupplied
  | 6 => exact unpackByte_payloadWord 4 2 hi hsupplied
  | 7 => exact unpackByte_payloadWord 4 3 hi hsupplied

/-! ### `transmit` -/

/-- With an empty mailbox `transmit` fills the one its read of TSR shows, after that read. -/
theorem transmitCall_some {s t : State} {i : Inst} {x : MbIx} (id : Word) (ext rtr : Bool) (length : Nat)
    (data : List Byte) (h : accessible s i .tsr = true) (hx : (s.can i).lowestEmpty = some x)
    (hfill : fillMailbox atOnce i x id ext rtr length data (s.takeDraws 1) = .ok ((), t)) :
    transmitCall atOnce i id ext rtr length data s = .ok (.int x.toNat, t) := by
  rw [transmitCall, Prog.bind_ok (a := (x.toNat : Int)) (s' := t)]
  · rfl
  rw [transmitProg, atOnce_read, Prog.bind_ok (regRead_ok h), readRule, firstEmpty_readTsr, hx]
  exact Prog.bind_ok hfill

/-- Settles O50: after the read of TSR the operation's pieces fill the mailbox found. -/
theorem transmitFillsTheFirstEmptyMailbox : Obligations.TransmitFillsTheFirstEmptyMailbox := by
  intro s i x id ext rtr length data h hx hdata m word
  have hempty : m.pending = false := Controller.pending_of_lowestEmpty hx
  obtain ⟨t, ht, ⟨lo, hi, hm⟩, honly⟩ := fillMailbox_fills id ext rtr length data hempty (s.takeDraws 1)
    (by rwa [accessible_takeDraws]) (by rw [State.can_takeDraws])
  have hadv := (filledOnly_takeDraws s 1).trans honly
  refine ⟨t.returning (.int x.toNat), _, _, finish_ok (transmitCall_some id ext rtr length data h hx ht), rfl, ?_,
    fun k hk => unpack8_payloadWord lo hi hdata hk, hadv.params, hadv.filter, hadv.program, ?_, fun hg => ?_⟩
  · rw [State.can_returning, hm]
    rfl
  · rw [State.returning_draws, hadv.draws]
    omega
  · obtain ⟨m', rfl⟩ := hadv.quiet hg
    simp [← Nat.add_assoc]

/-! ## The steps of the transmitter (R356, R357, R361) -/

/-- The frame an attempt sends, by the three conditions of R361. -/
theorem sentFrame_eq (c : Controller) (m : Mailbox) (b6 b7 : Byte) : sentFrame c m b6 b7 =
    if c.mcr.ttcm = true ∧ m.tgt = true ∧ m.dlc = 8 then
      { m.frame with data := (m.frame.data.set 6 b6).set 7 b7 } else m.frame := by
  simp only [sentFrame, Bool.and_eq_true, decide_eq_true_eq, and_assoc]

/-- Whether the transmitter may attempt mailbox x (R356). -/
def Controller.mayAttempt (c : Controller) (x : MbIx) : Prop :=
  c.resetAsserted = false ∧ c.mode = .normal ∧ c.esr.boff = false ∧ (c.mb x).pending = true ∧
    ¬(c.btr.silm = true ∧ c.btr.lbkm = false)

/-- An attempt is enabled when one may be made, and arbitration is lost outside loopback only. -/
theorem txAttemptEnabled_iff (c : Controller) (x : MbIx) (o : TxOutcome) :
    txAttemptEnabled c x o = true ↔ c.mayAttempt x ∧ (o = .arbitrationLost → c.btr.lbkm = false) := by
  have hsilm : (!(c.btr.silm && !c.btr.lbkm)) = true ↔ ¬(c.btr.silm = true ∧ c.btr.lbkm = false) := by
    cases c.btr.silm <;> cases c.btr.lbkm <;> decide
  have hmay : (!c.resetAsserted && c.mode = .normal && !c.esr.boff && (c.mb x).pending
      && !(c.btr.silm && !c.btr.lbkm)) = true ↔ c.mayAttempt x := by
    simp only [Bool.and_eq_true, hsilm, Bool.not_eq_true', decide_eq_true_eq, and_assoc, Controller.mayAttempt]
  unfold txAttemptEnabled
  rw [Bool.and_eq_true, hmay]
  cases o <;> simp

theorem agentStep_txAttempt {s : State} {i : Inst} (x : MbIx) (stamp : Half) (b6 b7 : Byte) (o : TxOutcome)
    (hi : hasInst s.params i = true) : agentStep (.txAttempt i x stamp b6 b7 o) s =
      if txAttemptEnabled (s.can i) x o then attemptStep s i x stamp b6 b7 o else s := by
  simp only [agentStep, AgentStep.enabled, AgentStep.inst, AgentStep.ready, AgentStep.perform, hi, Bool.true_and]

/-- A failed attempt completes the request exactly with NART. -/
theorem Mailbox.failed_eq (m : Mailbox) (nart : Bool) (h : m.pending = true) : m.failed nart =
    { m with pending := !nart, abrq := m.abrq && !nart, rqcp := m.rqcp || nart } := by
  cases nart with
  | false =>
    simp only [failed, Bool.false_eq_true, if_false, Bool.not_false, Bool.and_true, Bool.or_false]
    rw [← h]
  | true => simp [failed, complete]

theorem Controller.attempt_success (c : Controller) (p : Params) (fl : FilterBlock) (i : Inst) (x : MbIx)
    (stamp : Half) (f : Frame) (ka kt : Bool) (rx : RxDraws) :
    c.attempt p fl i x stamp f (.success ka kt rx) =
      { (if c.btr.lbkm then c.offer p fl i f rx else c).setMb x { c.mb x with
          time := stamp, pending := false, abrq := false, rqcp := true, txok := true,
          alst := (c.mb x).alst && ka, terr := (c.mb x).terr && kt } with
        esr := { c.esr with lec := 0 } } := by
  cases h : c.btr.lbkm <;>
    simp [Controller.attempt, h, Controller.clearLec, Mailbox.succeeded, Mailbox.complete]

theorem Controller.attempt_arbitrationLost (c : Controller) (p : Params) (fl : FilterBlock) (i : Inst) (x : MbIx)
    (stamp : Half) (f : Frame) (h : (c.mb x).pending = true) :
    c.attempt p fl i x stamp f .arbitrationLost = c.setMb x { c.mb x with
      time := stamp, alst := true, txok := false, pending := !c.mcr.nart, abrq := (c.mb x).abrq && !c.mcr.nart,
      rqcp := (c.mb x).rqcp || c.mcr.nart } :=
  congrArg (c.setMb x) (Mailbox.failed_eq { c.mb x with time := stamp, alst := true, txok := false } c.mcr.nart h)

theorem Controller.attempt_error (c : Controller) (p : Params) (fl : FilterBlock) (i : Inst) (x : MbIx)
    (stamp : Half) (f : Frame) (code : ErrorCode) (d : ErrorDraws) (h : (c.mb x).pending = true) :
    c.attempt p fl i x stamp f (.error code d) = (c.setMb x { c.mb x with
      time := stamp, terr := true, txok := false, pending := !c.mcr.nart, abrq := (c.mb x).abrq && !c.mcr.nart,
      rqcp := (c.mb x).rqcp || c.mcr.nart }).errorEvent (some code) d :=
  congrArg (fun m => (c.setMb x m).errorEvent (some code) d)
    (Mailbox.failed_eq { c.mb x with time := stamp, terr := true, txok := false } c.mcr.nart h)

theorem State.send_setCan (s : State) (i : Inst) (c : Controller) (l : List (Inst × Frame)) :
    (s.setCan i c).send l = { s.setCan i c with busOut := s.busOut ++ l } := by
  rw [State.send, State.setCan_busOut]

/-- Settles O51: the enabling condition, and the effect of each outcome. -/
theorem transmissionAttemptOutcomes : Obligations.TransmissionAttemptOutcomes := by
  intro s i x stamp b6 b7 hi c m f attempt enabled
  have hframe : sentFrame c m b6 b7 = f := sentFrame_eq c m b6 b7
  have hattempt (o : TxOutcome) : attempt o = if txAttemptEnabled c x o then
      (s.setCan i (c.attempt s.params s.filter i x stamp f o)).send (sentToBus c i f o) else s := by
    rw [← hframe]
    exact agentStep_txAttempt x stamp b6 b7 o hi
  have hoff (o : TxOutcome) (h : ¬(enabled ∧ (o = .arbitrationLost → c.btr.lbkm = false))) : attempt o = s := by
    rw [hattempt, if_neg ((txAttemptEnabled_iff c x o).not.2 h)]
  have hon (o : TxOutcome) (he : enabled) (h : o = .arbitrationLost → c.btr.lbkm = false) : attempt o =
      (s.setCan i (c.attempt s.params s.filter i x stamp f o)).send (sentToBus c i f o) := by
    rw [hattempt, if_pos ((txAttemptEnabled_iff c x o).2 ⟨he, h⟩)]
  refine ⟨fun o h => hoff o fun h' => h h'.1, fun he => ?_⟩
  have ⟨_, _, _, hp, _⟩ := he
  refine ⟨fun ka kt rx => ?_, ?_, fun code d => ?_⟩
  · rw [hon (.success ka kt rx) he (by simp), Controller.attempt_success, State.send_setCan]
    rfl
  · cases hl : c.btr.lbkm with
    | true => exact hoff _ fun h => by simp [hl] at h
    | false =>
      rw [hon _ he fun _ => hl, sentToBus, State.send_nil, Controller.attempt_arbitrationLost _ _ _ _ _ _ _ hp]
      rfl
  · rw [hon (.error code d) he (by simp), sentToBus, State.send_nil, Controller.attempt_error _ _ _ _ _ _ _ _ _ hp]

/-- Settles O52: the enabling condition of an abort, and its effect on the mailbox. -/
theorem abortEmptiesThePendingMailbox : Obligations.AbortEmptiesThePendingMailbox := by
  intro s i x hi c m
  have hstep : agentStep (.txAbort i x) s =
      if c.resetAsserted = false ∧ m.pending = true ∧ m.abrq = true then s.setCan i (c.setMb x m.aborted) else s := by
    simp only [agentStep, AgentStep.enabled, AgentStep.inst, AgentStep.ready, AgentStep.perform, hi, Bool.true_and,
      Bool.and_eq_true, Bool.not_eq_true', and_assoc]
    rfl
  exact ⟨fun h => by rw [hstep, if_pos h]; rfl, fun h => by rw [hstep, if_neg h]⟩

end Sys2Proof.Machine

/-! PROOFS. Reception (44_receive.md): the receive FIFOs, RFxR and the output mailboxes, the receive step of `RxEngine`,
and the operations `receive` and `releaseFifo`. -/

namespace Sys2Proof.Machine

/-! ## Queueing (R405) -/

theorem Fifo.enqueue_eq (f : Fifo) (locked : Bool) (e : Entry) : f.enqueue locked e =
    if f.q.length < 3 then { q := f.q ++ [e], full := f.full || decide (f.q.length = 2), fovr := f.fovr }
    else if locked then { q := f.q, full := f.full, fovr := true }
    else { q := f.q.take 2 ++ [e], full := f.full, fovr := true } := by
  have hthird : (f.q.length + 1 = 3) = (f.q.length = 2) := propext Nat.succ_inj
  simp only [← hthird]
  rfl

/-- Settles O40: a FIFO with room, and the two ways an overrun ends. -/
theorem enqueueKeepsDepthThree : Obligations.EnqueueKeepsDepthThree := by
  intro f locked e
  refine ⟨fun h => ?_, ?_, ?_, fun h => (Fifo.wf_iff _).1 (Fifo.enqueue_wf locked e ((Fifo.wf_iff f).2 h))⟩
  · rw [Fifo.enqueue_eq, if_pos h]
  · rintro h rfl
    rw [Fifo.enqueue_eq, if_neg (Nat.not_lt.2 h)]
    rfl
  · rintro h rfl
    rw [Fifo.enqueue_eq, if_neg (Nat.not_lt.2 h)]
    rfl

/-! ## The receive step (R404, R305, R311, R408) -/

/-- The entry of a frame shows it, with the residue past its payload. -/
theorem entryShows_entryOf (f : Frame) (n : Nat) (d : RxDraws) : entryShows (entryOf f n d) f n d := by
  refine ⟨rfl, rfl, rfl, rfl, fun k => ?_⟩
  obtain ⟨l0, l1, l2, l3⟩ := unpackByte_pack4 (entryByte f d 0) (entryByte f d 1) (entryByte f d 2) (entryByte f d 3)
  obtain ⟨h0, h1, h2, h3⟩ := unpackByte_pack4 (entryByte f d 4) (entryByte f d 5) (entryByte f d 6) (entryByte f d 7)
  match k with
  | 0 => exact l0
  | 1 => exact l1
  | 2 => exact l2
  | 3 => exact l3
  | 4 => exact h0
  | 5 => exact h1
  | 6 => exact h2
  | 7 => exact h3

/-- The environment's number names a member of a list that has one. -/
theorem exists_pickFrom {α : Type} {l : List α} (h : l ≠ []) (n : Nat) : ∃ y ∈ l, pickFrom l n = some y := by
  have hlt : n % l.length < l.length := Nat.mod_lt _ (List.length_pos_iff.2 h)
  exact ⟨l[n % l.length], List.getElem_mem hlt, List.getElem?_eq_getElem hlt⟩

/-- Every member of a list is named by some number. -/
theorem exists_pick_of_mem {α : Type} {l : List α} {y : α} (h : y ∈ l) : ∃ n, pickFrom l n = some y := by
  obtain ⟨n, hlt, rfl⟩ := List.getElem_of_mem h
  exact ⟨n, by rw [pickFrom, Nat.mod_eq_of_lt hlt, List.getElem?_eq_getElem hlt]⟩

theorem accepting_eq_none {p : Params} {fl : FilterBlock} {i : Inst} {f : Frame} (pick : Nat)
    (h : fl.finit = true ∨ accept p fl i f = []) : accepting p fl i f pick = none := by
  unfold accepting
  rcases h with h | h
  · rw [if_pos h]
  · rw [h]
    exact ite_self _

theorem accepting_of_active {p : Params} {fl : FilterBlock} {i : Inst} {f : Frame} (pick : Nat)
    (h : fl.finit = false) : accepting p fl i f pick = pickFrom (accept p fl i f) pick := by
  rw [accepting, h]
  rfl

theorem Controller.offer_of_none {c : Controller} {p : Params} {fl : FilterBlock} {i : Inst} {f : Frame} {d : RxDraws}
    (h : accepting p fl i f d.pick = none) : c.offer p fl i f d = c.clearLec := by
  rw [offer, h]

theorem Controller.offer_of_some {c : Controller} {p : Params} {fl : FilterBlock} {i : Inst} {f : Frame} {d : RxDraws}
    {x : FifoIx} {n : Nat} (h : accepting p fl i f d.pick = some (x, n)) :
    c.offer p fl i f d = c.clearLec.setFifo x ((c.fifo x).enqueue c.mcr.rflm (entryOf f n d)) := by
  rw [offer, h]

/-- Whether a controller takes frames from the bus (R404). -/
def Controller.listens (c : Controller) : Prop :=
  c.resetAsserted = false ∧ c.mode = .normal ∧ c.esr.boff = false ∧ c.btr.lbkm = false

theorem Controller.not_listens_iff (c : Controller) : ¬c.listens ↔
    c.resetAsserted = true ∨ c.mode ≠ .normal ∨ c.esr.boff = true ∨ c.btr.lbkm = true := by
  simp only [listens, not_and_or, Bool.not_eq_false, ne_eq]

theorem AgentStep.ready_rxFrame_iff (c : Controller) (i : Inst) (f : Frame) (d : RxDraws) :
    (AgentStep.rxFrame i f d).ready c = true ↔ c.listens := by
  simp only [AgentStep.ready, Bool.and_eq_true, Bool.not_eq_true', decide_eq_true_eq, and_assoc, Controller.listens]

theorem agentStep_rxFrame_of_listens {s : State} {i : Inst} (f : Frame) (d : RxDraws) (hi : hasInst s.params i = true)
    (h : (s.can i).listens) :
    agentStep (.rxFrame i f d) s = s.setCan i ((s.can i).offer s.params s.filter i f d) :=
  if_pos (Bool.and_eq_true_iff.2 ⟨hi, (AgentStep.ready_rxFrame_iff ..).2 h⟩)

theorem agentStep_rxFrame_of_not_listens {s : State} {i : Inst} (f : Frame) (d : RxDraws)
    (h : ¬(s.can i).listens) : agentStep (.rxFrame i f d) s = s :=
  if_neg fun he => h ((AgentStep.ready_rxFrame_iff ..).1 (Bool.and_eq_true_iff.1 he).2)

/-- Settles O39: what a listening controller does with an offered frame, by the winner picked. -/
theorem receiveStepQueuesTheWinnersEntry : Obligations.ReceiveStepQueuesTheWinnersEntry := by
  intro s i f d hi c cleared takes
  refine ⟨fun h => agentStep_rxFrame_of_not_listens f d ((Controller.not_listens_iff c).2 h),
    fun hreset hmode hboff hlbkm => ?_⟩
  have hlistens : c.listens := ⟨hreset, hmode, hboff, hlbkm⟩
  have hstep (d : RxDraws) : agentStep (.rxFrame i f d) s = s.setCan i (c.offer s.params s.filter i f d) :=
    agentStep_rxFrame_of_listens f d hi hlistens
  refine ⟨fun hlost => ?_, fun hactive hwon => ?_⟩
  · rw [hstep, Controller.offer_of_none (accepting_eq_none _ hlost)]
    rfl
  have htakes {d : RxDraws} {x : FifoIx} {n : Nat}
      (h : pickFrom (accept s.params s.filter i f) d.pick = some (x, n)) : takes d x n :=
    ⟨entryOf f n d, entryShows_entryOf f n d, by
      rw [hstep, Controller.offer_of_some ((accepting_of_active _ hactive).trans h)]; rfl⟩
  constructor
  · obtain ⟨⟨x, n⟩, hmem, hpick⟩ := exists_pickFrom hwon d.pick
    exact ⟨x, n, hmem, htakes hpick⟩
  · intro x n hmem
    obtain ⟨pick, hpick⟩ := exists_pick_of_mem hmem
    exact ⟨pick, htakes (d := { d with pick := pick }) hpick⟩

/-! ## RFxR (R400, R401) -/

/-- Settles O41: the bits of RFxR, and its write rule. -/
theorem fifoStatusReadAndWrite : Obligations.FifoStatusReadAndWrite := by
  intro s i x v h f
  refine ⟨fun hdepth => ⟨_, exec_rd_ok h, ?_⟩, exec_wr_ok h ?_⟩
  · simp only [readRule, ← BusWord.bit_eq_word, ← BusWord.field_eq_word]
    refine ⟨?_, readRfr_bit3 f _ hdepth, readRfr_bit4 f _ hdepth, readRfr_bit5 f _ hdepth, rfl⟩
    rw [readRfr_field_0_2, BitVec.toNat_ofNat]
    exact Nat.mod_eq_of_lt (Nat.lt_succ_of_le hdepth)
  · simp only [writeRule, writeRfr, BusWord.ofWord_bit]
    rfl

/-! ## The output mailboxes (R402, R403) -/

/-- The registers of output mailbox x. -/
def outputRegs (x : FifoIx) : List Reg := [.rir x, .rdtr x, .rdlr x, .rdhr x]

theorem mem_outputRegs {x : FifoIx} {r : Reg} :
    r ∈ outputRegs x ↔ r = .rir x ∨ r = .rdtr x ∨ r = .rdlr x ∨ r = .rdhr x := by
  simp [outputRegs]

/-- The registers of a receive FIFO are decoded in every window. -/
theorem accessible_outputRegs (s : State) (i : Inst) {x : FifoIx} {r : Reg} (hr : r ∈ outputRegs x) :
    accessible s i r = accessible s i (.rir x) := by
  rcases mem_outputRegs.1 hr with rfl | rfl | rfl | rfl <;> rfl

theorem writeRule_outputRegs (a : Access) (s : State) (i : Inst) (v : BusWord) {x : FifoIx} {r : Reg}
    (hr : r ∈ outputRegs x) : writeRule a s i v r = .ok s := by
  rcases mem_outputRegs.1 hr with rfl | rfl | rfl | rfl <;> rfl

/-- Settles O43: the write rule of an output mailbox register. -/
theorem outputMailboxWritesAreIgnored : Obligations.OutputMailboxWritesAreIgnored :=
  fun s i _ _ h _ hr => exec_wr_ok ((accessible_outputRegs s i hr).trans h) (writeRule_outputRegs _ s i _ hr)

theorem readRule_outputRegs_of_empty {s : State} {i : Inst} {x : FifoIx} {r : Reg} (d : Word)
    (h : ((s.can i).fifo x).q = []) (hr : r ∈ outputRegs x) : readRule s i d r = drawnWord d := by
  rcases mem_outputRegs.1 hr with rfl | rfl | rfl | rfl
  · simp only [readRule, readRir, h]
  · simp only [readRule, readRdtr, h]
  · simp only [readRule, readRdlr, h]
  · simp only [readRule, readRdhr, h]

/-- A field of which no bit is drawn. -/
theorem field_of_defined (val draw : Word) {free : Word} {lo n : Nat} (h : free.extractLsb' lo n = 0) :
    BusWord.field { val, free, draw } lo n = val.extractLsb' lo n := if_pos h

section
variable {f : Fifo} {e : Entry} (d : Word) (h : f.q.head? = some e)
include h

theorem readRir_of_head : readRir f d = { val := fieldAt e.rir 1, free := 0x00000001, draw := d } := by
  obtain ⟨rest, hq⟩ := List.head?_eq_some_iff.1 h
  simp only [readRir, hq]

theorem readRdtr_of_head : readRdtr f d =
    { val := fieldAt e.dlc 0 ||| fieldAt e.fmi 8 ||| fieldAt e.time 16, free := 0x000000F0, draw := d } := by
  obtain ⟨rest, hq⟩ := List.head?_eq_some_iff.1 h
  simp only [readRdtr, hq]

theorem readRdlr_of_head : readRdlr f d = .ofWord e.dlo := by
  obtain ⟨rest, hq⟩ := List.head?_eq_some_iff.1 h
  simp only [readRdlr, hq]

theorem readRdhr_of_head : readRdhr f d = .ofWord e.dhi := by
  obtain ⟨rest, hq⟩ := List.head?_eq_some_iff.1 h
  simp only [readRdhr, hq]

theorem readRir_field_1_31 : (readRir f d).field 1 31 = e.rir := by
  rw [readRir_of_head d h, field_of_defined _ _ (by decide)]
  exact extractLsb'_fieldAt_same _ _ (by decide)

theorem readRdtr_fields : (readRdtr f d).field 0 4 = e.dlc ∧ (readRdtr f d).field 8 8 = e.fmi ∧
    (readRdtr f d).field 16 16 = e.time := by
  rw [readRdtr_of_head d h]
  refine ⟨?_, ?_, ?_⟩ <;>
    simp (disch := decide) [field_of_defined, BitVec.extractLsb'_or, extractLsb'_fieldAt_same,
      extractLsb'_fieldAt_other]

end

/-- Settles O42: the read rules for an empty FIFO, and their fields for the entry at the head. -/
theorem outputMailboxShowsTheHead : Obligations.OutputMailboxShowsTheHead := by
  intro s i x h reads
  have hreads {P : BusWord → Prop} (r : Reg) (hr : accessible s i r = true)
      (hP : P (readRule s i (Config.draw s.draws) r)) : reads r P := ⟨_, exec_rd_ok hr, hP⟩
  refine ⟨fun hempty r hr => hreads r ((accessible_outputRegs s i hr).trans h) ?_, fun e rest hq => ?_⟩
  · rw [readRule_outputRegs_of_empty _ hempty hr]
    rfl
  have hhead : ((s.can i).fifo x).q.head? = some e := by rw [hq]; rfl
  obtain ⟨hdlc, hfmi, htime⟩ := readRdtr_fields (Config.draw s.draws) hhead
  refine ⟨hreads (.rir x) h ?_, hreads (.rdtr x) h ?_, hreads (.rdlr x) h ?_, hreads (.rdhr x) h ?_⟩ <;>
    simp only [readRule, ← BusWord.field_eq_word]
  · exact ⟨readRir_field_1_31 _ hhead, by rw [readRir_of_head _ hhead]⟩
  · exact ⟨hdlc, hfmi, htime, by rw [readRdtr_of_head _ hhead]⟩
  · rw [readRdlr_of_head _ hhead]
    exact ⟨BusWord.ofWord_word _, rfl⟩
  · rw [readRdhr_of_head _ hhead]
    exact ⟨BusWord.ofWord_word _, rfl⟩

/-! ## Releasing the head entry (R407, R510) -/

/-- What the read-modify-write of RFxR that releases leaves: agents may step between its accesses. -/
def released (i : Inst) (x : FifoIx) (s : State) : State :=
  let m := afterGap (s.takeDraws 1)
  m.setCan i ((m.can i).setFifo x
    (writeRfr ((m.can i).fifo x) ((readRfr ((s.can i).fifo x) (Config.draw s.draws)).update 0 rfomBit)))

theorem rmw_release {s : State} {i : Inst} {x : FifoIx} (h : accessible s i (.rfr x) = true) :
    atOnce.rmw i (.rfr x) 0 rfomBit s = .ok ((), released i x s) :=
  rmw_ok h (by rwa [afterGap_accessible, accessible_takeDraws]) rfl

/-- The release writes RFOM, and the flags as they were read. -/
theorem writeRfr_release (g : Fifo) {f : Fifo} (d : Word) (h : f.q.length ≤ 3) :
    writeRfr g ((readRfr f d).update 0 rfomBit) =
      { q := g.q.tail, full := g.full && !f.full, fovr := g.fovr && !f.fovr } := by
  simp [writeRfr, BusWord.update_bit, readRfr_bit3 f d h, readRfr_bit4 f d h, rfomBit]

theorem released_of_depth {s : State} {i : Inst} {x : FifoIx} (h : ((s.can i).fifo x).q.length ≤ 3) :
    released i x s = (afterGap (s.takeDraws 1)).setCan i (((afterGap (s.takeDraws 1)).can i).setFifo x
      { q := (((afterGap (s.takeDraws 1)).can i).fifo x).q.tail
        full := (((afterGap (s.takeDraws 1)).can i).fifo x).full && !((s.can i).fifo x).full
        fovr := (((afterGap (s.takeDraws 1)).can i).fifo x).fovr && !((s.can i).fifo x).fovr }) := by
  rw [released, writeRfr_release _ _ h]

theorem released_quiet {s : State} {i : Inst} {x : FifoIx} {e : Entry} {rest : List Entry} (hg : s.gaps = [])
    (hq : ((s.can i).fifo x).q = e :: rest) (hrest : rest.length ≤ 2) : released i x s =
      (s.setCan i ((s.can i).setFifo x { q := rest, full := false, fovr := false })).takeDraws 1 := by
  have hdepth : ((s.can i).fifo x).q.length ≤ 3 := by rw [hq]; exact Nat.succ_le_succ hrest
  rw [released_of_depth hdepth, afterGap_of_ended (s.takeDraws 1) hg]
  simp [hq]

/-- Settles O45: the operation is the read-modify-write that releases. -/
theorem releaseFifoDropsTheHead : Obligations.ReleaseFifoDropsTheHead := by
  intro s i
  refine ⟨fun n hn => runUnit_fault ?_, fun x h hdepth => ?_⟩
  · rw [releaseFifoProg, fifoOfNat_missing hn]
    rfl
  · intro m g
    rw [← released_of_depth hdepth]
    refine runUnit_ok ?_
    rw [releaseFifoProg, fifoOfNat_toNat]
    exact rmw_release h

/-! ## `receive` (R406) -/

/-- What `receive` returns of an entry (R406). -/
def Entry.received (e : Entry) : Received where
  id := if e.rir.getLsbD 1 then .extended (e.rir.extractLsb' 2 29) else .standard (e.rir.extractLsb' 20 11)
  isRemoteRequest := e.rir.getLsbD 0
  filterMatchIndex := e.fmi
  length := e.dlc
  data := unpack8 e.dlo e.dhi

theorem bit_inside_field (w : BusWord) (start : Nat) {len k : Nat} (h : k < len) :
    w.bit (start + k) = (w.field start len).getLsbD k := by
  rw [BusWord.field_eq_word, BusWord.bit_eq_word, BitVec.getLsbD_extractLsb', decide_eq_true h, Bool.true_and]

theorem field_inside_field (w : BusWord) (start : Nat) {len lo n : Nat} (h : lo + n ≤ len) :
    w.field (start + lo) n = (w.field start len).extractLsb' lo n := by
  apply BitVec.eq_of_getLsbD_eq
  intro j hj
  rw [← bit_inside_field w _ hj, BitVec.getLsbD_extractLsb', decide_eq_true hj, Bool.true_and,
    ← bit_inside_field w start (by omega), Nat.add_assoc]

/-- The words of one entry decode to it. -/
theorem decodeFrame_of_entry {r t lo hi : BusWord} {e : Entry} (hrir : r.field 1 31 = e.rir)
    (hdlc : t.field 0 4 = e.dlc) (hfmi : t.field 8 8 = e.fmi) (hlo : lo = .ofWord e.dlo) (hhi : hi = .ofWord e.dhi) :
    decodeFrame r t lo hi = e.received := by
  have hbit {k : Nat} (hk : k < 31) : r.bit (1 + k) = e.rir.getLsbD k := by rw [← hrir, bit_inside_field r 1 hk]
  have hfield {lo n : Nat} (h : lo + n ≤ 31) : r.field (1 + lo) n = e.rir.extractLsb' lo n := by
    rw [← hrir, field_inside_field r 1 h]
  subst hlo hhi
  simp only [decodeFrame, Entry.received, ← hdlc, ← hfmi, ← hbit (k := 1) (by decide),
    ← hbit (k := 0) (by decide), ← hfield (lo := 2) (n := 29) (by decide), ← hfield (lo := 20) (n := 11) (by decide),
    wordByte, BusWord.ofWord_field]
  rfl

/-- What a further read leaves. -/
def afterRead (s : State) : State := (afterGap s).takeDraws 1

theorem thenRead_afterRead {s : State} {i : Inst} {r : Reg} (h : accessible s i r = true) :
    atOnce.thenRead i r s = .ok (readRule (afterGap s) i (Config.draw s.draws) r, afterRead s) := thenRead_ok h

/-- What the four reads of `receive` leave. -/
def afterReads (s : State) : State := afterRead (afterRead (afterRead (s.takeDraws 1)))

/-- The frame decoded from the four reads of `receive`. -/
def readFrame (i : Inst) (x : FifoIx) (s : State) : Received :=
  let s1 := s.takeDraws 1
  let s2 := afterRead s1
  let s3 := afterRead s2
  decodeFrame (readRule s i (Config.draw s.draws) (.rir x)) (readRule (afterGap s1) i (Config.draw s1.draws) (.rdtr x))
    (readRule (afterGap s2) i (Config.draw s2.draws) (.rdlr x))
    (readRule (afterGap s3) i (Config.draw s3.draws) (.rdhr x))

/-- What `receive` leaves: with `autoRelease` a release follows the reads. -/
def afterReceive (i : Inst) (x : FifoIx) (autoRelease : Bool) (s : State) : State :=
  if autoRelease then released i x (afterGap (afterReads s)) else afterReads s

theorem afterRead_accessible (s : State) (i : Inst) (r : Reg) :
    accessible (afterRead s) i r = accessible s i r := by
  rw [afterRead, accessible_takeDraws, afterGap_accessible]

theorem afterReads_accessible (s : State) (i : Inst) (r : Reg) :
    accessible (afterReads s) i r = accessible s i r := by
  simp only [afterReads, afterRead_accessible, accessible_takeDraws]

theorem receiveProg_ok {s : State} {i : Inst} {x : FifoIx} (autoRelease : Bool)
    (h : accessible s i (.rir x) = true) :
    receiveProg atOnce i x autoRelease s = .ok (readFrame i x s, afterReceive i x autoRelease s) := by
  have h1 : accessible (s.takeDraws 1) i (.rdtr x) = true := by rw [accessible_takeDraws]; exact h
  have h2 : accessible (afterRead (s.takeDraws 1)) i (.rdlr x) = true := by rw [afterRead_accessible]; exact h1
  have h3 : accessible (afterRead (afterRead (s.takeDraws 1))) i (.rdhr x) = true := by
    rw [afterRead_accessible]; exact h2
  rw [receiveProg, atOnce_read, Prog.bind_ok (regRead_ok h), Prog.bind_ok (thenRead_afterRead h1),
    Prog.bind_ok (thenRead_afterRead h2), Prog.bind_ok (thenRead_afterRead h3)]
  cases autoRelease with
  | false => rfl
  | true =>
    have h4 : accessible (afterGap (afterReads s)) i (.rfr x) = true := by
      rw [afterGap_accessible, afterReads_accessible]; exact h
    exact Prog.bind_ok (rmw_release h4)

theorem exec_opReceive_ok {s : State} {i : Inst} {x : FifoIx} (autoRelease : Bool)
    (h : accessible s i (.rir x) = true) : exec (.opReceive i x.toNat autoRelease) s =
      .next ((afterReceive i x autoRelease s).returning (.frame (readFrame i x s))) := by
  refine finish_ok ?_
  rw [receiveCall, fifoOfNat_toNat]
  exact Prog.bind_ok (receiveProg_ok autoRelease h)

/-- `receive` takes its draws, and leaves the parameters, the filter block and the host's program alone. -/
theorem afterReceive_frame (i : Inst) (x : FifoIx) (autoRelease : Bool) (s : State) :
    let t := afterReceive i x autoRelease s
    t.params = s.params ∧ t.filter = s.filter ∧ t.program = s.program ∧
      t.draws = s.draws + 4 + (if autoRelease then 1 else 0) := by
  cases autoRelease <;> simp [afterReceive, released, afterReads, afterRead]

/-- The oldest entry stays through all four reads, so they decode it. -/
theorem readFrame_of_head {s : State} {i : Inst} {x : FifoIx} {e : Entry}
    (h : ((s.can i).fifo x).q.head? = some e) : readFrame i x s = e.received := by
  have hgap {t : State} (ht : ((t.can i).fifo x).q.head? = some e) :
      (((afterGap t).can i).fifo x).q.head? = some e := afterGap_head t i x e ht
  have hread {t : State} (ht : ((t.can i).fifo x).q.head? = some e) :
      (((afterRead t).can i).fifo x).q.head? = some e := by
    rw [afterRead, State.can_takeDraws]; exact hgap ht
  have h1 : (((s.takeDraws 1).can i).fifo x).q.head? = some e := by rwa [State.can_takeDraws]
  obtain ⟨hdlc, hfmi, -⟩ := readRdtr_fields (Config.draw (s.takeDraws 1).draws) (hgap h1)
  exact decodeFrame_of_entry (readRir_field_1_31 _ h) hdlc hfmi (readRdlr_of_head _ (hgap (hread h1)))
    (readRdhr_of_head _ (hgap (hread (hread h1))))

theorem afterReads_quiet {s : State} (hg : s.gaps = []) : afterReads s = s.takeDraws 4 := by
  have hread {n : Nat} : afterRead (s.takeDraws n) = s.takeDraws (n + 1) := by
    rw [afterRead, afterGap_of_ended (s.takeDraws n) hg, State.takeDraws_takeDraws]
  rw [afterReads, hread, hread, hread]

theorem afterReceive_quiet {s : State} {i : Inst} {x : FifoIx} {e : Entry} {rest : List Entry} (hg : s.gaps = [])
    (hq : ((s.can i).fifo x).q = e :: rest) (hrest : rest.length ≤ 2) : afterReceive i x true s =
      (s.setCan i ((s.can i).setFifo x { q := rest, full := false, fovr := false })).takeDraws 5 := by
  have hgap : afterGap (s.takeDraws 4) = s.takeDraws 4 := afterGap_of_ended _ hg
  rw [afterReceive, if_pos rfl, afterReads_quiet hg, hgap,
    released_quiet (s := s.takeDraws 4) hg (by rwa [State.can_takeDraws]) hrest]
  simp

/-- Settles O44: the four reads and the release, and the head entry that no agent removes between them. -/
theorem receiveDecodesTheHeadEntry : Obligations.ReceiveDecodesTheHeadEntry := by
  intro s i autoRelease
  refine ⟨fun n hn => ?_, fun x h => ⟨?_, fun e rest hq => ?_⟩⟩
  · show finish (receiveCall atOnce i n autoRelease) s = _
    rw [receiveCall, fifoOfNat_missing hn]
    rfl
  · obtain ⟨hparams, hfilter, hprogram, hdraws⟩ := afterReceive_frame i x autoRelease s
    exact ⟨_, _, exec_opReceive_ok autoRelease h, rfl, hparams, hfilter, hprogram, hdraws⟩
  · intro f
    have hframe : readFrame i x s = f := readFrame_of_head (by rw [hq]; rfl)
    refine ⟨⟨_, exec_opReceive_ok autoRelease h, by rw [hframe]; rfl⟩, fun hg _ => ?_, fun hg _ hrest => ?_⟩
    · rw [exec_opReceive_ok false h, hframe, afterReceive, if_neg Bool.false_ne_true, afterReads_quiet hg]
    · rw [exec_opReceive_ok true h, hframe, afterReceive_quiet hg hq hrest]

end Sys2Proof.Machine

/-! PROOFS. Errors, interrupts and power (60_exceptions.md): IER and ESR, what agents leave alone, the error event, the
wake-up and bus-off recovery steps, and the interrupt lines. -/

namespace Sys2Proof.Machine

/-! ## IER and ESR (R452, R453) -/

/-- What a word written to IER stores (R452). -/
def Ier.stored (v : Word) : Ier where
  tmeie := v.getLsbD 0
  fmpie0 := v.getLsbD 1
  ffie0 := v.getLsbD 2
  fovie0 := v.getLsbD 3
  fmpie1 := v.getLsbD 4
  ffie1 := v.getLsbD 5
  fovie1 := v.getLsbD 6
  ewgie := v.getLsbD 8
  epvie := v.getLsbD 9
  bofie := v.getLsbD 10
  lecie := v.getLsbD 11
  errie := v.getLsbD 15
  wkuie := v.getLsbD 16
  slkie := v.getLsbD 17

theorem writeRule_ier (a : Access) (s : State) (i : Inst) (v : Word) :
    writeRule a s i (.ofWord v) .ier = .ok (s.setCan i { s.can i with ier := .stored v }) := by
  simp only [writeRule, writeIer, BusWord.ofWord_bit, Ier.stored]

theorem writeRule_esr (a : Access) (s : State) (i : Inst) (v : Word) : writeRule a s i (.ofWord v) .esr =
    .ok (s.setCan i { s.can i with esr := { (s.can i).esr with lec := v.extractLsb' 4 3 } }) := by
  simp only [writeRule, writeEsr, BusWord.ofWord_field]

/-- Settles O55: the fields of the two read rules, and the two write rules. -/
theorem ierAndEsrReadAndWrite : Obligations.IerAndEsrReadAndWrite := by
  intro s i v h c places
  refine ⟨⟨_, exec_rd_ok (r := .ier) h, rfl, ?_⟩, exec_wr_ok (r := .ier) h (writeRule_ier ..),
    ⟨_, exec_rd_ok (r := .esr) h, rfl, ?_⟩, exec_wr_ok (r := .esr) h (writeRule_esr ..)⟩
  · simp only [places, List.forall_mem_cons, ← BusWord.bit_eq_word, readRule, readIer_bit0, readIer_bit1, readIer_bit2,
      readIer_bit3, readIer_bit4, readIer_bit5, readIer_bit6, readIer_bit8, readIer_bit9, readIer_bit10, readIer_bit11,
      readIer_bit15, readIer_bit16, readIer_bit17, c, true_and]
    exact List.forall_mem_nil _
  · simp only [← BusWord.bit_eq_word, ← BusWord.field_eq_word]
    exact ⟨readEsr_bit0 c _, readEsr_bit1 c _, readEsr_bit2 c _, readEsr_field_4_3 c _, readEsr_field_16_8 c _,
      readEsr_field_24_8 c _⟩

/-! ## Agents -/

/-- Settles O54: a step changes its own instance and the log, and no other field. -/
theorem agentsActOnTheirOwnInstance : Obligations.AgentsActOnTheirOwnInstance :=
  fun a s j hj => ⟨agentStep_can_other a s j hj, agentStep_filter a s, agentStep_params a s, agentStep_program a s,
    agentStep_gaps a s, agentStep_draws a s, agentStep_result a s, agentStep_call a s⟩

theorem agentStep_of_ready {a : AgentStep} {s : State} (hi : hasInst s.params a.inst = true)
    (h : a.ready (s.can a.inst) = true) : agentStep a s = a.perform s :=
  if_pos (Bool.and_eq_true_iff.2 ⟨hi, h⟩)

theorem agentStep_of_not_ready {a : AgentStep} {s : State} (h : ¬a.ready (s.can a.inst) = true) :
    agentStep a s = s :=
  if_neg fun he => h (Bool.and_eq_true_iff.1 he).2

theorem AgentStep.ready_errorEvent_iff (c : Controller) (i : Inst) (code : Option ErrorCode) (d : ErrorDraws) :
    (AgentStep.errorEvent i code d).ready c = true ↔ c.resetAsserted = false ∧ c.mode = .normal := by
  simp only [AgentStep.ready, Bool.and_eq_true, Bool.not_eq_true', decide_eq_true_eq]

theorem AgentStep.ready_wakeUp_iff (c : Controller) (i : Inst) :
    (AgentStep.wakeUp i).ready c = true ↔ c.resetAsserted = false ∧ c.mode = .sleep := by
  simp only [AgentStep.ready, Bool.and_eq_true, Bool.not_eq_true', decide_eq_true_eq]

theorem AgentStep.ready_busOffRecovery_iff (c : Controller) (i : Inst) :
    (AgentStep.busOffRecovery i).ready c = true ↔ c.resetAsserted = false ∧ c.esr.boff = true ∧ c.mode = .normal ∧
      (c.mcr.abom = true ∨ c.boffInitSeen = true) := by
  simp only [AgentStep.ready, Bool.and_eq_true, Bool.or_eq_true, Bool.not_eq_true', decide_eq_true_eq, and_assoc]

/-- With the reset asserted, or in another mode, a step that runs out of reset in mode m is not enabled. -/
theorem not_running_in_mode {c : Controller} {m : Mode} (h : c.resetAsserted = true ∨ c.mode ≠ m) :
    ¬(c.resetAsserted = false ∧ c.mode = m) := by
  rw [not_and_or, Bool.not_eq_false]
  exact h

/-! ## Error events (R454, R455) -/

theorem ewgfOf_eq (tec rxec : Byte) : ewgfOf tec rxec = decide (96 ≤ tec.toNat ∨ 96 ≤ rxec.toNat) :=
  (Bool.decide_or ..).symm

theorem epvfOf_eq (tec rxec : Byte) : epvfOf tec rxec = decide (128 ≤ tec.toNat ∨ 128 ≤ rxec.toNat) :=
  (Bool.decide_or ..).symm

/-- What an error event leaves, flag by flag. -/
theorem Controller.errorEvent_eq (c : Controller) (code : Option ErrorCode) (d : ErrorDraws) :
    c.errorEvent code d = { c with
      esr := { lec := code.elim c.esr.lec ErrorCode.lec, tec := d.tec, rxec := d.rxec, boff := c.esr.boff || d.boff,
               ewgf := ewgfOf d.tec d.rxec, epvf := epvfOf d.tec d.rxec },
      erri := c.erri || ((ewgfOf d.tec d.rxec && !c.esr.ewgf && c.ier.ewgie)
        || (epvfOf d.tec d.rxec && !c.esr.epvf && c.ier.epvie)
        || ((c.esr.boff || d.boff) && !c.esr.boff && c.ier.bofie) || (code.isSome && c.ier.lecie)) } := by
  cases code <;> rfl

/-- Settles O56: the enabling condition of an error event, and its effect on the status and on ERRI. -/
theorem errorEventsSetTheStatus : Obligations.ErrorEventsSetTheStatus := by
  intro s i code d hi c warning passive codeOf
  have hready := AgentStep.ready_errorEvent_iff c i code d
  refine ⟨fun h => agentStep_of_not_ready (hready.not.2 (not_running_in_mode h)), fun hr hm => ?_⟩
  rw [agentStep_of_ready hi (hready.2 ⟨hr, hm⟩)]
  have hlec : ErrorCode.lec = codeOf := funext fun l => by cases l <;> rfl
  show s.setCan i (c.errorEvent code d) = _
  rw [Controller.errorEvent_eq, hlec, ewgfOf_eq, epvfOf_eq]
  cases code <;> simp only [Option.elim, Bool.or_assoc, warning, passive]

/-! ## Wake-up and bus-off recovery (R464, R465) -/

/-- Settles O57: the enabling conditions of the two steps, and their effects. -/
theorem wakeUpAndBusOffRecovery : Obligations.WakeUpAndBusOffRecovery := by
  intro s i hi c recovers
  have hwake := AgentStep.ready_wakeUp_iff c i
  have hrecover : (AgentStep.busOffRecovery i).ready c = true ↔ recovers := AgentStep.ready_busOffRecovery_iff c i
  exact ⟨fun hr hm => agentStep_of_ready hi (hwake.2 ⟨hr, hm⟩),
    fun h => agentStep_of_not_ready (hwake.not.2 (not_running_in_mode h)),
    fun h => agentStep_of_ready hi (hrecover.2 h),
    fun h => agentStep_of_not_ready (hrecover.not.2 h)⟩

/-! ## Interrupt lines (R456) -/

theorem Controller.exists_mb (c : Controller) (P : Mailbox → Prop) :
    (∃ x, P (c.mb x)) ↔ P c.mb0 ∨ P c.mb1 ∨ P c.mb2 := by
  refine ⟨fun ⟨x, h⟩ => ?_, ?_⟩
  · cases x with
    | m0 => exact .inl h
    | m1 => exact .inr (.inl h)
    | m2 => exact .inr (.inr h)
  · rintro (h | h | h)
    · exact ⟨.m0, h⟩
    · exact ⟨.m1, h⟩
    · exact ⟨.m2, h⟩

theorem Controller.lineTx_iff (c : Controller) :
    c.lineTx = true ↔ c.ier.tmeie = true ∧ ∃ x, (c.mb x).rqcp = true := by
  rw [c.exists_mb fun m => m.rqcp = true]
  simp only [lineTx, Bool.and_eq_true, Bool.or_eq_true, or_assoc]

/-- The line of a receive FIFO, by the three enables of its events. -/
theorem fifoLine_iff (fmpie ffie fovie : Bool) (f : Fifo) :
    ((fmpie && !f.q.isEmpty) || (ffie && f.full) || (fovie && f.fovr)) = true ↔
      (fmpie = true ∧ f.q.length ≠ 0) ∨ (ffie = true ∧ f.full = true) ∨ (fovie = true ∧ f.fovr = true) := by
  have hempty : (!f.q.isEmpty) = true ↔ f.q.length ≠ 0 := by
    rw [Bool.not_eq_true', List.isEmpty_eq_false_iff]
    exact List.length_eq_zero_iff.not.symm
  simp only [Bool.or_eq_true, Bool.and_eq_true, hempty, or_assoc]

theorem Controller.lineSce_iff (c : Controller) :
    c.lineSce = true ↔ (c.ier.errie = true ∧ c.erri = true) ∨ (c.ier.wkuie = true ∧ c.wkui = true) ∨
      (c.ier.slkie = true ∧ c.slaki = true) := by
  simp only [lineSce, Bool.or_eq_true, Bool.and_eq_true, or_assoc]

/-- Settles O58: each line is the disjunction of its enabled sources; the lines of the two FIFOs are one function. -/
theorem interruptLinesFollowTheirSources : Obligations.InterruptLinesFollowTheirSources :=
  fun c => ⟨c.lineTx_iff, fifoLine_iff .., fifoLine_iff .., c.lineSce_iff⟩

end Sys2Proof.Machine

/-! PROOFS. Reset (70_reset_and_hazards.md): while it is asserted the window faults and the agents stand still (R500,
R458), and what power-up leaves (R501). -/

namespace Sys2Proof.Machine

/-! ## Accesses while the reset is asserted (R500, R458) -/

/-- What the decoder answers to an access that is none: when its direction bit agrees with its data, only that the width
or alignment is wrong (R124) or that no register is there (R152). -/
theorem Access.decode_error_cases {a : Access} {e : DecodeError} (hW : a.word.getLsbD 10 = a.data.isSome)
    (h : a.decode = .error e) : e = .badAccessWidth a ∨ e = .reservedOffset a := by
  unfold Access.decode at h
  split at h
  case isFalse =>
    cases h
    exact .inl rfl
  case isTrue =>
    split at h
    · cases h
      exact .inr rfl
    · split at h
      · cases h
      · cases h
      next hwrite hdata =>
        rw [hwrite, hdata] at hW
        cases hW

section
variable {s : State} {a : Access}

theorem checkAccess_of_resetAsserted (hi : hasInst s.params a.inst = true)
    (hr : (s.can a.inst).resetAsserted = true) (r : Reg) :
    checkAccess s a r = some (.accessDuringReset (.access a)) := by
  simp [checkAccess, hi, hr]

theorem stoppedAccess_of_resetAsserted (hi : hasInst s.params a.inst = true)
    (hr : (s.can a.inst).resetAsserted = true) (f : Fault) :
    stoppedAccess s a f = .fault (.accessDuringReset (.access a)) := by
  simp [stoppedAccess, accessStop, hi, hr]

/-- Whatever an access decodes to, the check for reset comes first. -/
theorem runDecoded_access_of_resetAsserted (hW : a.word.getLsbD 10 = a.data.isSome)
    (hi : hasInst s.params a.inst = true) (hr : (s.can a.inst).resetAsserted = true) :
    runDecoded a.decode s = .fault (.accessDuringReset (.access a)) := by
  cases hd : a.decode with
  | error e =>
    obtain rfl | rfl := Access.decode_error_cases hW hd
    · exact stoppedAccess_of_resetAsserted hi hr _
    · exact stoppedAccess_of_resetAsserted hi hr _
  | ok ins =>
    obtain ⟨r, i, ⟨rfl, rfl⟩ | ⟨v, rfl, rfl⟩⟩ := Access.decode_cases hW hd
    · exact (exec_rd r i s).trans (readInstr_stopped (checkAccess_of_resetAsserted hi hr r))
    · exact (exec_wr r i v s).trans (writeInstr_stopped (checkAccess_of_resetAsserted hi hr r))

end

/-! ## Agents while the reset is asserted (R500) -/

theorem AgentStep.resetAsserted_of_ready {a : AgentStep} {c : Controller} (h : a.ready c = true) :
    c.resetAsserted = false := by
  cases a with
  | txAttempt i x stamp byte6 byte7 o => exact ((txAttemptEnabled_iff c x o).1 h).1.1
  | rxFrame i f d => exact ((AgentStep.ready_rxFrame_iff c i f d).1 h).1
  | errorEvent i code d => exact ((AgentStep.ready_errorEvent_iff c i code d).1 h).1
  | wakeUp i => exact ((AgentStep.ready_wakeUp_iff c i).1 h).1
  | busOffRecovery i => exact ((AgentStep.ready_busOffRecovery_iff c i).1 h).1
  | modeFsm | txAbort =>
    simp only [AgentStep.ready, Bool.and_eq_true, Bool.not_eq_true', and_assoc] at h
    exact h.1

theorem agentStep_of_resetAsserted {a : AgentStep} {s : State} (hr : (s.can a.inst).resetAsserted = true) :
    agentStep a s = s :=
  agentStep_of_not_ready fun h => Bool.false_ne_true ((AgentStep.resetAsserted_of_ready h).symm.trans hr)

/-- Settles O12: the access word carries its direction in bit 10, so the access faults whatever it decodes to; and each
agent's enabling condition asks for the reset not to be asserted. -/
theorem resetAssertedStopsEverything : Obligations.ResetAssertedStopsEverything := by
  intro s i hi hr
  refine ⟨fun off width w hoff => ?_, fun a ha => agentStep_of_resetAsserted (ha ▸ hr)⟩
  obtain ⟨-, hwrite, -⟩ := accessWord_fields w.isSome off hoff
  exact runDecoded_access_of_resetAsserted hwrite hi hr

/-! ## Power-up (R500, R501) -/

theorem FilterBlock.atReset_isAtReset (n : Nat) : (FilterBlock.atReset n).isAtReset :=
  ⟨rfl, rfl, rfl, rfl, rfl, rfl⟩

/-- Settles O10: power-up gives each part its reset values, whatever its draws. -/
theorem resetStateIsPowerUp : Obligations.ResetStateIsPowerUp :=
  ⟨Controller.atReset_isAtReset _, Controller.atReset_isAtReset _, FilterBlock.atReset_isAtReset _, rfl⟩

/-- Settles O60: the reset values are good ones, whatever the draws. -/
theorem resetStateIsGood : Obligations.ResetStateIsGood := by
  have hcan1 : State.reset.can1.wf = true := Controller.atReset_wf _
  have hcan2 : State.reset.can2.wf = true := Controller.atReset_wf _
  have hfilter : State.reset.filter.wf State.reset.params = true := FilterBlock.atReset_wf _ _
  simp only [Obligations.ResetStateIsGood, State.wf, hcan1, hcan2, hfilter, Bool.and_self]

end Sys2Proof.Machine
